-- ==== Sys2Proof/Word.lean ====
section
/-! DEFINITION. The word types of the block (spec/00_scope.md R8, R9): a byte, a byte string in transmission order, and
the widths its ports and registers use. -/

namespace Sys2Proof

/-- A byte: 8 bits (R8). -/
abbrev Byte := BitVec 8

/-- A byte string: a finite sequence of bytes in transmission order, first byte first (R8). -/
abbrev Bytes := List Byte

/-- A 16-bit word: a control register (R30), a command header (R93), a field address (R36). -/
abbrev Word := BitVec 16

end Sys2Proof
end

