-- ==== Sys2Proof/Syntax.lean ====
section
/-! DEFINITION. The operations of the block as syntax: one constructor for each of the 51 rows of spec/opcode_table.json
(spec/30_encoding.md R97), the operand forms they take, and the items that travel on the block's ports. -/

namespace Sys2Proof

/-- The instruction operand of `PKT_ENCODE`: a number or a name (R181). -/
inductive InstrRef where
  | opcode (b : Byte)
  | name (n : String)
  deriving DecidableEq, Repr

/-- The operand of `FLD_ENCODE` for an integer type: a typed integer, or the 64-bit port word that carries one (R95). -/
inductive IntOperand where
  | value (v : Int)
  | port (val : BitVec 64)
  deriving DecidableEq, Repr

/-- The operand of `FLD_ENCODE` for a fixed-point type: a rational, or the 64-bit port word, an IEEE 754 binary64 datum
(R95, R144). -/
inductive RealOperand where
  | value (q : Rat)
  | port (val : BitVec 64)
  deriving DecidableEq, Repr

/-- The operations: one constructor per row of spec/opcode_table.json (R97, with the three added rows). The pattern operand of
an `FLD_ENCODE` of f32, f64 or an unrecognised type is the 64-bit port word `val` of R95. -/
inductive Instr where
  /-- `FLD_WIDTH` (R122), type code 0 to 15. -/
  | fldWidth (ty : BitVec 4)
  /-- `FLD_DECODE.u8` (R125). -/
  | fldDecodeU8 (bs : Bytes)
  /-- `FLD_DECODE.i8` (R126). -/
  | fldDecodeI8 (bs : Bytes)
  /-- `FLD_DECODE.u16` (R127). -/
  | fldDecodeU16 (bs : Bytes)
  /-- `FLD_DECODE.i16` (R128). -/
  | fldDecodeI16 (bs : Bytes)
  /-- `FLD_DECODE.u32` (R129). -/
  | fldDecodeU32 (bs : Bytes)
  /-- `FLD_DECODE.i32` (R130). -/
  | fldDecodeI32 (bs : Bytes)
  /-- `FLD_DECODE.f32` (R131). -/
  | fldDecodeF32 (bs : Bytes)
  /-- `FLD_DECODE.f64` (R132). -/
  | fldDecodeF64 (bs : Bytes)
  /-- `FLD_DECODE.fxp32` (R133). -/
  | fldDecodeFxp32 (bs : Bytes)
  /-- `FLD_DECODE.fxp16` (R134). -/
  | fldDecodeFxp16 (bs : Bytes)
  /-- `FLD_DECODE.ty10` (R124). -/
  | fldDecodeTy10 (bs : Bytes)
  /-- `FLD_DECODE.ty11` (R124). -/
  | fldDecodeTy11 (bs : Bytes)
  /-- `FLD_DECODE.ty12` (R124). -/
  | fldDecodeTy12 (bs : Bytes)
  /-- `FLD_DECODE.ty13` (R124). -/
  | fldDecodeTy13 (bs : Bytes)
  /-- `FLD_DECODE.ty14` (R124). -/
  | fldDecodeTy14 (bs : Bytes)
  /-- `FLD_DECODE.ty15` (R124). -/
  | fldDecodeTy15 (bs : Bytes)
  /-- `FLD_ENCODE.u8` (R136). -/
  | fldEncodeU8 (v : IntOperand)
  /-- `FLD_ENCODE.i8` (R137). -/
  | fldEncodeI8 (v : IntOperand)
  /-- `FLD_ENCODE.u16` (R138). -/
  | fldEncodeU16 (v : IntOperand)
  /-- `FLD_ENCODE.i16` (R139). -/
  | fldEncodeI16 (v : IntOperand)
  /-- `FLD_ENCODE.u32` (R140). -/
  | fldEncodeU32 (v : IntOperand)
  /-- `FLD_ENCODE.i32` (R141). -/
  | fldEncodeI32 (v : IntOperand)
  /-- `FLD_ENCODE.f32` (R142). -/
  | fldEncodeF32 (val : BitVec 64)
  /-- `FLD_ENCODE.f64` (R143). -/
  | fldEncodeF64 (val : BitVec 64)
  /-- `FLD_ENCODE.fxp32` (R144). -/
  | fldEncodeFxp32 (v : RealOperand)
  /-- `FLD_ENCODE.fxp16` (R145). -/
  | fldEncodeFxp16 (v : RealOperand)
  /-- `FLD_ENCODE.ty10` (R124). -/
  | fldEncodeTy10 (val : BitVec 64)
  /-- `FLD_ENCODE.ty11` (R124). -/
  | fldEncodeTy11 (val : BitVec 64)
  /-- `FLD_ENCODE.ty12` (R124). -/
  | fldEncodeTy12 (val : BitVec 64)
  /-- `FLD_ENCODE.ty13` (R124). -/
  | fldEncodeTy13 (val : BitVec 64)
  /-- `FLD_ENCODE.ty14` (R124). -/
  | fldEncodeTy14 (val : BitVec 64)
  /-- `FLD_ENCODE.ty15` (R124). -/
  | fldEncodeTy15 (val : BitVec 64)
  /-- `MAP_BUILD` (R160). -/
  | mapBuild (name : String)
  /-- `MAP_FIELD_AT` (R163). -/
  | mapFieldAt (address : BitVec 16)
  /-- `MAP_FIELD_NAMED` (R164). -/
  | mapFieldNamed (name : String)
  /-- `MAP_ALL_NAMES` (R165). -/
  | mapAllNames
  /-- `INSTR_LOOKUP` (R166). -/
  | instrLookup (name : String)
  /-- `INSTR_NAME` (R167). -/
  | instrName (opcode : Byte)
  /-- `PKT_CHECKSUM` (R180). -/
  | pktChecksum (bs : Bytes)
  /-- `PKT_ENCODE` (R181). -/
  | pktEncode (deviceId : Byte) (instr : InstrRef) (payload : Bytes)
  /-- `PKT_DECODE` (R182). -/
  | pktDecode (window : Bytes)
  /-- `RX_ONE` (R240). -/
  | rxOne
  /-- `CSR_READ` (R241), register number in `arg`. -/
  | csrRead (n : Byte)
  /-- `CSR_WRITE` (R242), register number in `arg`, 16-bit value. -/
  | csrWrite (n : Byte) (v : Word)
  /-- `ILLEGAL_COMMAND` (R243): the default of the command decoder, with the header that named no operation. -/
  | illegalCommand (header : Word)
  /-- `RXBYTE` (R201). -/
  | rxByte (b : Byte)
  /-- `RXTIMEOUT` (R203); bits 7:0 of the event word are kept only so that an event the framer does not take can stay with the
  transport as it was (R215); they have no effect (R92). -/
  | rxTimeout (ignored : Byte)
  /-- `CYCLE_START` (R200): the framer's internal step. -/
  | cycleStart
  /-- `FRAME` (R80): a whole frame on the wire. The length byte is `2 + payload.length` (R81) and the checksum byte is that of
  the body (R82), so neither is an operand. -/
  | frame (deviceId instruction : Byte) (payload : Bytes)
  /-- `PING` (R90): the wire instruction byte `0x01`. -/
  | ping
  deriving DecidableEq, Repr

/-- The operands that stand beside a command header, one lane for each kind of typed operand the rules list. R93 fixes the
header only and takes the operands as typed values; each operation reads its own lanes (log entry 4). The default of every lane
is an operand of zeros. -/
structure Lanes where
  bytes : Bytes := []
  int : IntOperand := .port 0
  val : BitVec 64 := 0
  real : RealOperand := .port 0
  name : String := ""
  address : BitVec 16 := 0
  byte : Byte := 0
  instr : InstrRef := .opcode 0
  word : Word := 0
  deriving DecidableEq, Repr

/-- A host command at the command port: a 16-bit header followed by its operands (R93). -/
structure Command where
  header : Word
  lanes : Lanes := {}
  deriving DecidableEq, Repr

/-- What a decoder of the block is given: a host command (R93), a 9-bit receive event word (R92), nothing (the framer's
internal step has no encoding, R200), or a byte string on the wire (R80). -/
inductive Encoded where
  | command (c : Command)
  | rx (w : BitVec 9)
  | internal
  | wire (bs : Bytes)
  deriving DecidableEq, Repr

end Sys2Proof
end

