-- ==== Sys2Proof/WellFormed.lean ====
section
/-! DEFINITION. Which instructions are well-formed: the checks an encoding cannot make by its types alone. -/

namespace Sys2Proof

/-- The `match`/`mask` rows of the command port (spec/30_encoding.md R93, R97): the mask and the value a header has under it.
The FieldCodec commands take any type code and want `arg[7:4] = 0`; `CSR_READ` and `CSR_WRITE` take any register number; every
other command wants `arg = 0`. -/
def headerRows : List (Word × Word) :=
  [(0xFFF0, 0x1000), (0xFFF0, 0x1100), (0xFFF0, 0x1200)] ++
  [(0xFFFF, 0x2000), (0xFFFF, 0x2100), (0xFFFF, 0x2200), (0xFFFF, 0x2300), (0xFFFF, 0x2400), (0xFFFF, 0x2500)] ++
  [(0xFFFF, 0x3000), (0xFFFF, 0x3100), (0xFFFF, 0x3200)] ++
  [(0xFFFF, 0x4000), (0xFF00, 0x4100), (0xFF00, 0x4200)]

/-- A header that some row of R97 matches. -/
def headerLegal (h : Word) : Bool := headerRows.any fun r => h &&& r.1 == r.2

/-- Well-formedness. `ILLEGAL_COMMAND` holds a header that names no operation (R96, R243); a `FRAME` carries a device id other
than `FF` (R83) and at most 253 payload bytes (R81). Every other operand is well-formed by its type. -/
def Instr.wellFormed : Instr → Bool
  | .fldWidth _ => true
  | .fldDecodeU8 _ => true
  | .fldDecodeI8 _ => true
  | .fldDecodeU16 _ => true
  | .fldDecodeI16 _ => true
  | .fldDecodeU32 _ => true
  | .fldDecodeI32 _ => true
  | .fldDecodeF32 _ => true
  | .fldDecodeF64 _ => true
  | .fldDecodeFxp32 _ => true
  | .fldDecodeFxp16 _ => true
  | .fldDecodeTy10 _ => true
  | .fldDecodeTy11 _ => true
  | .fldDecodeTy12 _ => true
  | .fldDecodeTy13 _ => true
  | .fldDecodeTy14 _ => true
  | .fldDecodeTy15 _ => true
  | .fldEncodeU8 _ => true
  | .fldEncodeI8 _ => true
  | .fldEncodeU16 _ => true
  | .fldEncodeI16 _ => true
  | .fldEncodeU32 _ => true
  | .fldEncodeI32 _ => true
  | .fldEncodeF32 _ => true
  | .fldEncodeF64 _ => true
  | .fldEncodeFxp32 _ => true
  | .fldEncodeFxp16 _ => true
  | .fldEncodeTy10 _ => true
  | .fldEncodeTy11 _ => true
  | .fldEncodeTy12 _ => true
  | .fldEncodeTy13 _ => true
  | .fldEncodeTy14 _ => true
  | .fldEncodeTy15 _ => true
  | .mapBuild _ => true
  | .mapFieldAt _ => true
  | .mapFieldNamed _ => true
  | .mapAllNames => true
  | .instrLookup _ => true
  | .instrName _ => true
  | .pktChecksum _ => true
  | .pktEncode _ _ _ => true
  | .pktDecode _ => true
  | .rxOne => true
  | .csrRead _ => true
  | .csrWrite _ _ => true
  | .illegalCommand h => !headerLegal h
  | .rxByte _ => true
  | .rxTimeout _ => true
  | .cycleStart => true
  | .frame deviceId _ payload => decide (deviceId ≠ 0xFF) && decide (payload.length ≤ 253)
  | .ping => true

end Sys2Proof
end

