-- ==== Sys2Proof/Decode.lean ====
section
/-! DEFINITION. The decoders of the block's ports and of the wire, and the encoder beside them (spec/30_encoding.md).
`decode` is total: every command header names an operation or is `ILLEGAL_COMMAND` (R96), every 9-bit word is a receive event
(R92), and a byte string on the wire that is no frame is rejected by name. -/

namespace Sys2Proof

/-- The sum of the bytes of a string, as an integer (R180). -/
def byteSum : Bytes → Nat
  | [] => 0
  | b :: bs => b.toNat + byteSum bs

/-- `cks(s)`: the one's complement of the 8-bit truncated sum (R180, R82). -/
def cks (s : Bytes) : Byte := ~~~(BitVec.ofNat 8 (byteSum s))

/-- The bytes under the checksum: device id, length, instruction, payload (R81, R82). -/
def frameBody (deviceId instruction : Byte) (payload : Bytes) : Bytes :=
  [deviceId, BitVec.ofNat 8 (2 + payload.length), instruction] ++ payload

/-- The frame as a byte string: two header bytes, the body, the checksum of the body (R80 to R82). -/
def frameBytes (deviceId instruction : Byte) (payload : Bytes) : Bytes :=
  [0xFF, 0xFF] ++ frameBody deviceId instruction payload ++ [cks (frameBody deviceId instruction payload)]

/-- Why a byte string on the wire is not a frame (R91). -/
inductive DecodeError where
  /-- fewer than 6 bytes, and not the one byte `PING`. -/
  | wireShort
  /-- the first two bytes are not `FF FF`. -/
  | wireHeader
  /-- the device id is `FF`. -/
  | wireDeviceId
  /-- the length byte is not the string's length minus 4. -/
  | wireLength
  /-- the last byte is not the checksum of the body. -/
  | wireChecksum
  deriving DecidableEq, Repr

/-- `FLD_DECODE` by type code (R94, R97). -/
def decodeFldDecode (ty : BitVec 4) (bs : Bytes) : Instr :=
  match ty.toNat with
  | 0 => .fldDecodeU8 bs
  | 1 => .fldDecodeI8 bs
  | 2 => .fldDecodeU16 bs
  | 3 => .fldDecodeI16 bs
  | 4 => .fldDecodeU32 bs
  | 5 => .fldDecodeI32 bs
  | 6 => .fldDecodeF32 bs
  | 7 => .fldDecodeF64 bs
  | 8 => .fldDecodeFxp32 bs
  | 9 => .fldDecodeFxp16 bs
  | 10 => .fldDecodeTy10 bs
  | 11 => .fldDecodeTy11 bs
  | 12 => .fldDecodeTy12 bs
  | 13 => .fldDecodeTy13 bs
  | 14 => .fldDecodeTy14 bs
  | _ => .fldDecodeTy15 bs

/-- `FLD_ENCODE` by type code (R94, R97). -/
def decodeFldEncode (ty : BitVec 4) (o : Lanes) : Instr :=
  match ty.toNat with
  | 0 => .fldEncodeU8 o.int
  | 1 => .fldEncodeI8 o.int
  | 2 => .fldEncodeU16 o.int
  | 3 => .fldEncodeI16 o.int
  | 4 => .fldEncodeU32 o.int
  | 5 => .fldEncodeI32 o.int
  | 6 => .fldEncodeF32 o.val
  | 7 => .fldEncodeF64 o.val
  | 8 => .fldEncodeFxp32 o.real
  | 9 => .fldEncodeFxp16 o.real
  | 10 => .fldEncodeTy10 o.val
  | 11 => .fldEncodeTy11 o.val
  | 12 => .fldEncodeTy12 o.val
  | 13 => .fldEncodeTy13 o.val
  | 14 => .fldEncodeTy14 o.val
  | _ => .fldEncodeTy15 o.val

/-- The commands whose `arg` must be 0, by `op` (R97). -/
def decodePlain (op : Byte) (o : Lanes) : Option Instr :=
  match op.toNat with
  | 0x20 => some (.mapBuild o.name)
  | 0x21 => some (.mapFieldAt o.address)
  | 0x22 => some (.mapFieldNamed o.name)
  | 0x23 => some .mapAllNames
  | 0x24 => some (.instrLookup o.name)
  | 0x25 => some (.instrName o.byte)
  | 0x30 => some (.pktChecksum o.bytes)
  | 0x31 => some (.pktEncode o.byte o.instr o.bytes)
  | 0x32 => some (.pktDecode o.bytes)
  | 0x40 => some .rxOne
  | _ => none

/-- The command decoder (R93, R96, R97): `op` in bits 15:8, `arg` in bits 7:0; a header that breaks the rules of R93 or names
no operation is `ILLEGAL_COMMAND`. -/
def decodeCommand (c : Command) : Instr :=
  let op := c.header.extractLsb' 8 8
  let arg := c.header.extractLsb' 0 8
  let ty := c.header.extractLsb' 0 4
  let fieldCodec (i : Instr) := if c.header.extractLsb' 4 4 = 0 then i else .illegalCommand c.header
  match op.toNat with
  | 0x10 => fieldCodec (.fldWidth ty)
  | 0x11 => fieldCodec (decodeFldDecode ty c.lanes.bytes)
  | 0x12 => fieldCodec (decodeFldEncode ty c.lanes)
  | 0x41 => .csrRead arg
  | 0x42 => .csrWrite arg c.lanes.word
  | _ => if arg = 0 then (decodePlain op c.lanes).getD (.illegalCommand c.header) else .illegalCommand c.header

/-- The receive event decoder (R92): bit 8 is `timeout`, bits 7:0 are `byte`; of a timeout they are ignored, and the instruction
keeps them without effect (DESIGN CHOICE, log entry 18). -/
def decodeRx (w : BitVec 9) : Instr :=
  if w.getLsbD 8 then .rxTimeout (w.extractLsb' 0 8) else .rxByte (w.extractLsb' 0 8)

/-- The wire decoder: the one byte `PING` (R90), or exactly one frame (R80 to R83, R85); anything else is rejected by the name
of the first rule of R91 it breaks. -/
def decodeWire (t : Bytes) : Except DecodeError Instr :=
  match t with
  | [b] => if b = 0x01 then .ok .ping else .error .wireShort
  | h0 :: h1 :: deviceId :: len :: instruction :: c :: rest =>
    let payload := (c :: rest).dropLast
    if h0 ≠ 0xFF ∨ h1 ≠ 0xFF then .error .wireHeader
    else if deviceId = 0xFF then .error .wireDeviceId
    else if len.toNat ≠ rest.length + 2 then .error .wireLength
    else if (c :: rest).getLastD 0 ≠ cks (frameBody deviceId instruction payload) then .error .wireChecksum
    else .ok (.frame deviceId instruction payload)
  | _ => .error .wireShort

/-- The decoder of every port. -/
def decode : Encoded → Except DecodeError Instr
  | .command c => .ok (decodeCommand c)
  | .rx w => .ok (decodeRx w)
  | .internal => .ok .cycleStart
  | .wire bs => decodeWire bs

/-- A command header from its two fields (R93). -/
def header (op arg : Byte) : Word := op ++ arg

/-- A host command as a port item. -/
def commandOf (op arg : Byte) (o : Lanes := {}) : Encoded := .command ⟨header op arg, o⟩

/-- The encoding of an instruction (R80, R92, R93, R97). The lanes an operation does not read are left at their defaults. -/
def encode : Instr → Encoded
  | .fldWidth ty => commandOf 0x10 (ty.setWidth 8)
  | .fldDecodeU8 bs => commandOf 0x11 0x00 { bytes := bs }
  | .fldDecodeI8 bs => commandOf 0x11 0x01 { bytes := bs }
  | .fldDecodeU16 bs => commandOf 0x11 0x02 { bytes := bs }
  | .fldDecodeI16 bs => commandOf 0x11 0x03 { bytes := bs }
  | .fldDecodeU32 bs => commandOf 0x11 0x04 { bytes := bs }
  | .fldDecodeI32 bs => commandOf 0x11 0x05 { bytes := bs }
  | .fldDecodeF32 bs => commandOf 0x11 0x06 { bytes := bs }
  | .fldDecodeF64 bs => commandOf 0x11 0x07 { bytes := bs }
  | .fldDecodeFxp32 bs => commandOf 0x11 0x08 { bytes := bs }
  | .fldDecodeFxp16 bs => commandOf 0x11 0x09 { bytes := bs }
  | .fldDecodeTy10 bs => commandOf 0x11 0x0A { bytes := bs }
  | .fldDecodeTy11 bs => commandOf 0x11 0x0B { bytes := bs }
  | .fldDecodeTy12 bs => commandOf 0x11 0x0C { bytes := bs }
  | .fldDecodeTy13 bs => commandOf 0x11 0x0D { bytes := bs }
  | .fldDecodeTy14 bs => commandOf 0x11 0x0E { bytes := bs }
  | .fldDecodeTy15 bs => commandOf 0x11 0x0F { bytes := bs }
  | .fldEncodeU8 v => commandOf 0x12 0x00 { int := v }
  | .fldEncodeI8 v => commandOf 0x12 0x01 { int := v }
  | .fldEncodeU16 v => commandOf 0x12 0x02 { int := v }
  | .fldEncodeI16 v => commandOf 0x12 0x03 { int := v }
  | .fldEncodeU32 v => commandOf 0x12 0x04 { int := v }
  | .fldEncodeI32 v => commandOf 0x12 0x05 { int := v }
  | .fldEncodeF32 val => commandOf 0x12 0x06 { val := val }
  | .fldEncodeF64 val => commandOf 0x12 0x07 { val := val }
  | .fldEncodeFxp32 v => commandOf 0x12 0x08 { real := v }
  | .fldEncodeFxp16 v => commandOf 0x12 0x09 { real := v }
  | .fldEncodeTy10 val => commandOf 0x12 0x0A { val := val }
  | .fldEncodeTy11 val => commandOf 0x12 0x0B { val := val }
  | .fldEncodeTy12 val => commandOf 0x12 0x0C { val := val }
  | .fldEncodeTy13 val => commandOf 0x12 0x0D { val := val }
  | .fldEncodeTy14 val => commandOf 0x12 0x0E { val := val }
  | .fldEncodeTy15 val => commandOf 0x12 0x0F { val := val }
  | .mapBuild name => commandOf 0x20 0 { name := name }
  | .mapFieldAt address => commandOf 0x21 0 { address := address }
  | .mapFieldNamed name => commandOf 0x22 0 { name := name }
  | .mapAllNames => commandOf 0x23 0
  | .instrLookup name => commandOf 0x24 0 { name := name }
  | .instrName opcode => commandOf 0x25 0 { byte := opcode }
  | .pktChecksum bs => commandOf 0x30 0 { bytes := bs }
  | .pktEncode deviceId instr payload => commandOf 0x31 0 { byte := deviceId, instr := instr, bytes := payload }
  | .pktDecode window => commandOf 0x32 0 { bytes := window }
  | .rxOne => commandOf 0x40 0
  | .csrRead n => commandOf 0x41 n
  | .csrWrite n v => commandOf 0x42 n { word := v }
  | .illegalCommand h => .command ⟨h, {}⟩
  | .rxByte b => .rx (0#1 ++ b)
  | .rxTimeout ignored => .rx (1#1 ++ ignored)
  | .cycleStart => .internal
  | .frame deviceId instruction payload => .wire (frameBytes deviceId instruction payload)
  | .ping => .wire [0x01]

/-- The first `n` bytes of a number, bits 7:0 first: byte `k` is bits `8k+7 .. 8k`. -/
def tableBytes : Nat → Nat → Bytes
  | 0, _ => []
  | n + 1, w => BitVec.ofNat 8 w :: tableBytes n (w / 256)

/-- The port item a table row's bits stand for (log entry 5). 16 bits are a command header with operands of zeros, but for the
words below `0x200`, which the table gives to the 9-bit receive events (`op` `00` and `01` name no command); 9 to 15 bits are a
receive event; no bits are the internal step; any other whole number of bytes is a string on the wire. -/
def tableItem (nbits w : Nat) : Encoded :=
  if nbits = 0 then .internal
  else if nbits = 16 ∧ 0x200 ≤ w then .command ⟨BitVec.ofNat 16 w, {}⟩
  else if 9 ≤ nbits ∧ nbits ≤ 16 then .rx (BitVec.ofNat 9 w)
  else .wire (tableBytes (nbits / 8) w)

/-- The instruction the decoder reads from a table row's bits. -/
def decodeTableWord (nbits w : Nat) : Option Instr :=
  match decode (tableItem nbits w) with
  | .ok i => some i
  | .error _ => none

end Sys2Proof
end

