-- ==== Sys2Proof/Config.lean ====
section
/-! DEFINITION. What an implementation fixes: the records the parameter `VARIANTS` is made of (R37, R169) and the four
OPEN parameters of spec/00_scope.md R7. The parameters are opaque constants: no proof can see a value of them. -/

namespace Sys2Proof

/-- One entry of a variant's field list (R169). The type is kept by name (R94), so that a name outside the ten of R120 can
stand here. `elementCount` has the width R36 gives it (log entry 6); an entry without an array suffix has count 1.
`toolTipFormatter` is an opaque value that no rule reads (R36, R162; log entry 7). -/
structure FieldEntry where
  name : String
  primitiveType : String
  elementCount : BitVec 16 := 1
  writable : Bool := true
  toolTipFormatter : String := ""
  deriving DecidableEq, Repr

/-- One row of an InstructionTable (R37). -/
structure InstructionRow where
  name : String
  opcode : Byte
  description : String := ""
  deriving DecidableEq, Repr

/-- A variant definition: an ordered field list and an instruction table (R169). -/
structure VariantDef where
  fieldList : List FieldEntry
  instructions : List InstructionRow
  deriving DecidableEq, Repr

/-- `VARIANTS`: a finite map from variant name to variant definition (R169), written as an association list; of two entries
with one name the first is the map's. -/
abbrev Variants := List (String × VariantDef)

namespace Config

/-- The OPEN parameter `VARIANTS` (R7, R169, D26, D28). DESIGN CHOICE (log entry 1): it is handed to the machine through
`State.reset`, in the field `variants` that no step writes. -/
opaque variants : Variants

/-- The OPEN parameter `FXP_TIE` (R7, R147, D17): how a value exactly halfway between `n` and `n + 1` rounds, as a function
of that value alone, given here by `n`; `true` is the upper neighbour (log entry 2). -/
opaque fxpTieUp : Int → Bool

/-- The OPEN parameter `RX_BACKLOG` (R7, R215, D24): whether the transport keeps the byte that is the `n`-th to arrive at it,
asked only of a byte that arrives while no receive cycle is active (log entry 3). -/
opaque rxBacklog : Nat → Bool

/-- The OPEN parameter `RX_TIMEOUT` (R7, R281): owned by the transport; no rule, and so no definition here, reads it. -/
opaque rxTimeout : Nat

end Config

end Sys2Proof
end

