-- ==== Sys2Proof/Machine/State.lean ====
section
/-! DEFINITION. The machine's state as plain data: the pieces spec/10_state.md gives the block (R20, R23 to R27), the event
stream (R264) and the responses (R261) it puts out, and the inputs its agents have pending (spec/00_scope.md R5). -/

namespace Sys2Proof.Machine

/-- The errors of R260, in its order. `framingError` and `checksumError` are reported inside events, and `unsupportedFeature`
and `transportError` belong to the host (R274). -/
inductive Err where
  | framingError
  | checksumError
  | parseError
  | decodeError
  | unknownInstruction
  | unknownVariant
  | unsupportedFeature
  | transportError
  | malformedWindow
  | invalidDeviceId
  | payloadTooLong
  | unknownType
  | encodeRangeError
  | malformedTable
  | illegalCommand
  | noActiveMap
  deriving DecidableEq, Repr

/-- A Frame (R35). -/
structure Frame where
  deviceId : Byte
  instruction : Byte
  payload : Bytes
  checksumValid : Bool
  deriving DecidableEq, Repr

/-- A FieldDescriptor (R36). -/
structure FieldDescriptor where
  name : String
  address : BitVec 16
  byteSize : BitVec 16
  elementCount : BitVec 16
  writable : Bool
  primitiveType : String
  toolTipFormatter : String
  deriving DecidableEq, Repr

/-- The active map (R27, R160): the field descriptors, the two reverse indices, the total size and the instruction table. -/
structure MemoryMap where
  variant : String
  fields : List FieldDescriptor
  byAddress : List (BitVec 16 × FieldDescriptor)
  byName : List (String × FieldDescriptor)
  totalMemorySize : Nat
  instructions : List InstructionRow
  deriving DecidableEq, Repr

/-- The result of an operation, as a typed value (R10, R93). -/
inductive Value where
  /-- `ok` with no result (R160, R240, R242). -/
  | unit
  /-- a byte: a checksum (R180), an opcode (R166). -/
  | byte (b : Byte)
  /-- a 16-bit word: a width (R122), a control register (R241). -/
  | word (w : Word)
  /-- an integer (R125 to R130). -/
  | int (v : Int)
  /-- a binary32 datum as its bit pattern (R131). -/
  | f32 (p : BitVec 32)
  /-- a binary64 datum as its bit pattern (R132). -/
  | f64 (p : BitVec 64)
  /-- the exact rational `raw / 2^scale` (R133, R134). -/
  | fixed (raw : Int) (scale : Nat)
  /-- a byte string (R135, R181). -/
  | bytes (bs : Bytes)
  /-- a Frame (R182). -/
  | frame (f : Frame)
  /-- a FieldDescriptor or none (R163, R164). -/
  | field (d : Option FieldDescriptor)
  /-- an ordered sequence of names (R165). -/
  | names (ns : List String)
  /-- a name and description or none (R167). -/
  | row (r : Option (String × String))
  deriving DecidableEq, Repr

/-- The response to a host command (R261): a status code of R260 and the result, absent unless the status is 0. -/
structure Response where
  status : Byte
  value : Option Value
  deriving DecidableEq, Repr

/-- The events of R264. -/
inductive Event where
  | frameOut (raw : Bytes) (frame : Frame)
  | timeoutOut (discarded : Nat)
  | diag (error : Err) (dropped : Nat)
  deriving DecidableEq, Repr

/-- Which agent moves next (R5, R60, R268): the host's next command, the framer taking the transport's next receive event, the
framer's own step, a transmission on the bus reaching the transport, the reset input (R300). -/
inductive Turn where
  | command
  | receive
  | cycleStart
  | wire
  | reset
  deriving DecidableEq, Repr

/-- Why the machine stops. No operation of the block stops it (R270; spec/93_implementation_defined.md section 3). -/
inductive Fault where
  /-- Raised by `RXBYTE` when the buffer it would frame is a window that `PKT_DECODE` refuses. R214 shows that this cannot
  happen from a buffer in normal form, so no run from reset raises it. Safe: the model stops where the spec gives no effect. -/
  | windowRefused
  deriving DecidableEq, Repr

/-- Why the machine gives an instruction no meaning. -/
inductive Refusal where
  /-- Raised by an arm of `exec` whose instruction has no meaning yet; no arm does so now. Safe. -/
  | notModelled (mnemonic : String)
  deriving DecidableEq, Repr

/-- The state. `buf` to `map` are the state of the block (R20, R23 to R27, R38), `events` and `responses` what it has put out
(R261, R264). `variants` is the parameter `VARIANTS` (R169), which no step writes. The last five fields are the MODEL's own: the
inputs R5 and R39 place outside the block, and which agent moves next (log entries 1, 3, 8, 9). -/
structure State where
  /-- `BUF` (R20): the frame buffer, oldest byte first. -/
  buf : Bytes
  /-- `RUN` (R23). -/
  run : Bool
  /-- `ACTIVE` (R24). -/
  active : Bool
  /-- `ONESHOT` (R25). -/
  oneshot : Bool
  /-- `BIGEND` (R26). -/
  bigend : Bool
  /-- `MAP` (R27). -/
  map : Option MemoryMap
  /-- The event stream (R264, R265), oldest first. -/
  events : List Event
  /-- The responses given so far (R261), oldest first. -/
  responses : List Response
  /-- The parameter `VARIANTS` (R7, R169). -/
  variants : Variants
  /-- The host's commands not yet taken, in the order it issues them (R60). -/
  commands : List Command
  /-- The receive events the transport holds and the framer has not taken, in bus order (R39, R92, R215). -/
  received : List (BitVec 9)
  /-- The transmissions on the bus that have not reached the transport (R51, R283). -/
  wire : List Bytes
  /-- How many bytes have arrived at the transport: the argument of `RX_BACKLOG` (R215). -/
  arrivals : Nat
  /-- The schedule: which agent moves next (R60, R268). -/
  turns : List Turn
  deriving DecidableEq, Repr

/-- The state after reset (R40, R300): the block as the table of R40 says, no input pending. -/
def State.reset : State where
  buf := []
  run := false
  active := false
  oneshot := false
  bigend := false
  map := none
  events := []
  responses := []
  variants := Config.variants
  commands := []
  received := []
  wire := []
  arrivals := 0
  turns := []

end Sys2Proof.Machine
end

