-- ==== Sys2Proof/Machine/Flags.lean ====
section
/-! DEFINITION. The control and status registers as views of the state (spec/10_state.md R22, R30 to R33). The one condition
code of the block, `checksumValid`, is computed with the window in PacketCodec.lean (R28, R182). -/

namespace Sys2Proof.Machine

/-- A flag as a bit at a place of a 16-bit register. -/
def bitAt (v : Bool) (place : Nat) : Word := (BitVec.ofBool v).setWidth 16 <<< place

/-- `CTRL`: bit 0 `RUN`, bit 1 `BIGEND`, the rest 0 (R31). -/
def ctrl (s : State) : Word := bitAt s.run 0 ||| bitAt s.bigend 1

/-- `FSTATE`: the code of the state name for the present buffer (R22). In normal form the length decides it. -/
def fstate (buf : Bytes) : Nat := min buf.length 5

/-- `STATUS`: bit 0 `ACTIVE`, bit 1 `ONESHOT`, bits 4:2 `FSTATE`, bit 5 `MAPVALID`, the rest 0 (R32). -/
def status (s : State) : Word :=
  bitAt s.active 0 ||| bitAt s.oneshot 1 ||| (BitVec.ofNat 3 (fstate s.buf)).setWidth 16 <<< 2 ||| bitAt s.map.isSome 5

/-- `BUFLEN`: bits 8:0 hold the length of the buffer, the rest 0 (R33). -/
def buflen (s : State) : Word := (BitVec.ofNat 9 s.buf.length).setWidth 16

/-- A control register by number (R30, R241). -/
def csr (s : State) (n : Byte) : Except Err Value :=
  match n.toNat with
  | 0 => .ok (.word (ctrl s))
  | 1 => .ok (.word (status s))
  | 2 => .ok (.word (buflen s))
  | _ => .error .illegalCommand

end Sys2Proof.Machine
end

