-- ==== Sys2Proof/Machine/Ops.lean ====
section
/-! DEFINITION. The shared operations over the state: what a command answers, what taking an error does, what the framer puts
out, what the transport holds, reset, and the choice of the next item. -/

namespace Sys2Proof.Machine

/-- The numeric code of an error (R260). -/
def Err.code : Err → Byte
  | .framingError => 0x01
  | .checksumError => 0x02
  | .parseError => 0x03
  | .decodeError => 0x04
  | .unknownInstruction => 0x05
  | .unknownVariant => 0x06
  | .unsupportedFeature => 0x07
  | .transportError => 0x08
  | .malformedWindow => 0x10
  | .invalidDeviceId => 0x11
  | .payloadTooLong => 0x12
  | .unknownType => 0x13
  | .encodeRangeError => 0x14
  | .malformedTable => 0x15
  | .illegalCommand => 0x16
  | .noActiveMap => 0x17

/-- The kind code of an event (R264). -/
def Event.kind : Event → Nat
  | .frameOut _ _ => 1
  | .timeoutOut _ => 2
  | .diag _ _ => 3

/-- One response per command, in command order (R261). -/
def State.respond (s : State) (r : Response) : State := { s with responses := s.responses ++ [r] }

/-- The command ends with `ok(value)` (R10, R261). -/
def State.finish (s : State) (v : Value) : State := s.respond ⟨0x00, some v⟩

/-- TAKING AN ERROR, the block's form of an exception (R10, R270): the command's response is the error's code and no value; no
state is written, no event is emitted. There is nothing to return from (R272): the next command is accepted at once. -/
def State.raise (s : State) (e : Err) : State := s.respond ⟨e.code, none⟩

/-- The command ends with its result or its error (R10). -/
def State.answer (s : State) (r : Except Err Value) : State :=
  match r with
  | .ok v => s.finish v
  | .error e => s.raise e

/-- `emit E`: append to the event stream (R264, R265). -/
def State.emit (s : State) (e : Event) : State := { s with events := s.events ++ [e] }

/-- Emit an event if there is one. -/
def State.emitSome (s : State) (e : Option Event) : State :=
  match e with
  | some e => s.emit e
  | none => s

/-- `BUF <- bs` (R11). -/
def State.setBuf (s : State) (bs : Bytes) : State := { s with buf := bs }

/-- `ACTIVE <- v` (R24). -/
def State.setActive (s : State) (v : Bool) : State := { s with active := v }

/-- `ONESHOT <- v` (R25). -/
def State.setOneshot (s : State) (v : Bool) : State := { s with oneshot := v }

/-- The two fields of `CTRL`, written together (R242). -/
def State.setCtrl (s : State) (run bigend : Bool) : State := { s with run := run, bigend := bigend }

/-- `MAP <- m`, whole (R63, R160). -/
def State.setMap (s : State) (m : MemoryMap) : State := { s with map := some m }

/-- A receive event the framer does not take stays with the transport, ahead of all that came after it (R215). -/
def State.untake (s : State) (w : BitVec 9) : State := { s with received := w :: s.received }

/-- The receive event word of a byte (R92). -/
def byteWord (b : Byte) : BitVec 9 := 0#1 ++ b

/-- The receive event word of a timeout, with its ignored bits (R92). -/
def timeoutWord (ignored : Byte) : BitVec 9 := 1#1 ++ ignored

/-- A byte of the bus arrives at the transport (R51, R215): it is held for the framer behind the bytes before it; while no cycle
is active the transport keeps it or loses it by `RX_BACKLOG`. -/
def State.arrive (s : State) (b : Byte) : State :=
  { s with
    received := if s.active || Config.rxBacklog s.arrivals then s.received ++ [byteWord b] else s.received
    arrivals := s.arrivals + 1 }

/-- A byte string of the bus arrives at the transport, in wire order (R51). -/
def State.deliver (s : State) (bs : Bytes) : State := bs.foldl State.arrive s

/-- Reset (R300, R301): every piece of the block's state takes the value of R40. What the transport holds, the host's pending
commands and the parameter `VARIANTS` are not the block's and stay. -/
def State.resetBlock (s : State) : State :=
  { s with
    buf := [], run := false, active := false, oneshot := false, bigend := false, map := none
    events := [], responses := [] }

/-- The agent that moves next takes its item, if it has one: the item and the state without it. -/
def fetch (s : State) : Option (Encoded × State) :=
  match s.turns with
  | .command :: ts =>
    match s.commands with
    | c :: cs => some (.command c, { s with turns := ts, commands := cs })
    | [] => none
  | .receive :: ts =>
    match s.received with
    | w :: ws => some (.rx w, { s with turns := ts, received := ws })
    | [] => none
  | .cycleStart :: ts => some (.internal, { s with turns := ts })
  | .wire :: ts =>
    match s.wire with
    | t :: rest => some (.wire t, { s with turns := ts, wire := rest })
    | [] => none
  | .reset :: _ => none
  | [] => none

/-- The agent that moves next has no item: its turn passes; at a reset turn the block resets; when no agent is to move nothing
happens (the stopped block consumes nothing and keeps all state, R285). -/
def State.idle (s : State) : State :=
  match s.turns with
  | .reset :: ts => { s.resetBlock with turns := ts }
  | _ :: ts => { s with turns := ts }
  | [] => s

/-- A transmission that is no frame reaches the transport byte by byte like any other (R282, R283); no other port has an item
its decoder rejects. -/
def State.rejected (s : State) (e : Encoded) : State :=
  match e with
  | .wire bs => s.deliver bs
  | _ => s

end Sys2Proof.Machine
end

