-- ==== Sys2Proof/Machine/Control.lean ====
section
/-! DEFINITION. The control operations (spec/44_control.md). -/

namespace Sys2Proof.Machine

/-- `RX_ONE` (R240): request one receive cycle. -/
def execRxOne (s : State) : Host.Outcome State Fault Refusal :=
  .next ((s.setOneshot true).finish .unit)

/-- `CSR_READ` (R241): no side effect; `IllegalCommand` for a number above 2. -/
def execCsrRead (n : Byte) (s : State) : Host.Outcome State Fault Refusal :=
  .next (s.answer (csr s n))

/-- `CSR_WRITE` (R242): only `CTRL` is writable; `RUN <- v[0]`, `BIGEND <- v[1]`, `v[15:2]` ignored. -/
def execCsrWrite (n : Byte) (v : Word) (s : State) : Host.Outcome State Fault Refusal :=
  .next (if n = 0 then (s.setCtrl (v.getLsbD 0) (v.getLsbD 1)).finish .unit else s.raise .illegalCommand)

/-- `ILLEGAL_COMMAND` (R243): the header names no operation; nothing but the response changes. -/
def execIllegalCommand (_header : Word) (s : State) : Host.Outcome State Fault Refusal :=
  .next (s.raise .illegalCommand)

end Sys2Proof.Machine
end

