-- ==== Sys2Proof/Machine/Bytes.lean ====
section
/-! DEFINITION. Byte strings as numbers (spec/00_scope.md R9, R11; spec/40_field_codec.md R121). -/

namespace Sys2Proof.Machine

/-- `uint_N(bs)`: the unsigned value of a byte string, most significant byte first (R9). -/
def uintOf : Bytes → Nat
  | [] => 0
  | b :: bs => b.toNat * 256 ^ bs.length + uintOf bs

/-- `sint_N(bs)` with `N = 8 * len(bs)` (R9): two's complement. -/
def sintOf (bs : Bytes) : Int :=
  if 2 * uintOf bs < 256 ^ bs.length then (uintOf bs : Int) else (uintOf bs : Int) - 256 ^ bs.length

/-- `bytes_N(v)` with `N = 8 * w` (R9): the `w` bytes of `v` modulo `2^N`, most significant first. -/
def bytesOf : Nat → Int → Bytes
  | 0, _ => []
  | w + 1, v => BitVec.ofInt 8 (v / 256 ^ w) :: bytesOf w v

/-- `le(bs)`: wire order to most-significant-first order, and back (R11, R121). -/
def le (bigend : Bool) (bs : Bytes) : Bytes := if bigend then bs else bs.reverse

end Sys2Proof.Machine
end

