-- ==== Sys2Proof/Machine/Operands.lean ====
section
/-! DEFINITION. The operand forms and the port packing of values (spec/30_encoding.md R94, R95), the ten primitive types and
their widths (spec/40_field_codec.md R120, R122). -/

namespace Sys2Proof.Machine

/-- The closed set of ten primitive types (R86, R120). -/
inductive PrimType where
  | u8 | i8 | u16 | i16 | u32 | i32 | f32 | f64 | fxp32 | fxp16
  deriving DecidableEq, Repr

/-- The type a 4-bit code stands for; codes 10 to 15 are unrecognised (R94). -/
def typeOfCode (ty : BitVec 4) : Option PrimType :=
  match ty.toNat with
  | 0 => some .u8
  | 1 => some .i8
  | 2 => some .u16
  | 3 => some .i16
  | 4 => some .u32
  | 5 => some .i32
  | 6 => some .f32
  | 7 => some .f64
  | 8 => some .fxp32
  | 9 => some .fxp16
  | _ => none

/-- The type a name stands for; any other name is unrecognised (R94, R120). -/
def typeOfName (n : String) : Option PrimType :=
  [("u8", PrimType.u8), ("i8", .i8), ("u16", .u16), ("i16", .i16), ("u32", .u32), ("i32", .i32), ("f32", .f32),
    ("f64", .f64), ("fxp32", .fxp32), ("fxp16", .fxp16)].lookup n

/-- The width of a recognised type in bytes (R54, R86). -/
def PrimType.width : PrimType → Nat
  | .u8 | .i8 => 1
  | .u16 | .i16 | .fxp16 => 2
  | .u32 | .i32 | .f32 | .fxp32 => 4
  | .f64 => 8

/-- `byteWidth`: the width of a type, `FALLBACK_WIDTH = 4` for an unrecognised one (R122). -/
def byteWidth (t : Option PrimType) : Nat :=
  match t with
  | some t => t.width
  | none => 4

/-- The least integer a type carries on the wire (R86). -/
def PrimType.lo : PrimType → Int
  | .u8 | .u16 | .u32 | .f32 | .f64 => 0
  | .i8 => -128
  | .i16 | .fxp16 => -32768
  | .i32 | .fxp32 => -2147483648

/-- The greatest integer a type carries on the wire (R86). -/
def PrimType.hi : PrimType → Int
  | .u8 => 255
  | .i8 => 127
  | .u16 => 65535
  | .i16 | .fxp16 => 32767
  | .u32 | .f32 => 4294967295
  | .i32 | .fxp32 => 2147483647
  | .f64 => 18446744073709551615

/-- The integer an integer operand stands for: at the port, the two's-complement reading of the 64-bit word (R95). -/
def intOf : IntOperand → Int
  | .value v => v
  | .port val => val.toInt

/-- The value of an IEEE 754 binary64 datum as numerator and denominator; none for an infinity or a NaN (R95). PRESUMED: the
places of sign, exponent and fraction are IEEE 754's (log entry 11). -/
def binary64 (bits : BitVec 64) : Option (Int × Nat) :=
  let e := (bits.extractLsb' 52 11).toNat
  let fraction := (bits.extractLsb' 0 52).toNat
  if e = 2047 then none
  else
    let m : Int := if e = 0 then fraction else 2 ^ 52 + fraction
    let n : Int := m * 2 ^ (max e 1 - 1075)
    some (if bits.msb then -n else n, 2 ^ (1075 - max e 1))

/-- The rational a fixed-point operand stands for, as numerator and denominator (R95, R144). -/
def ratioOf : RealOperand → Option (Int × Nat)
  | .value q => some (q.num, q.den)
  | .port val => binary64 val

/-- The 64-bit word a decoded value travels in at a fixed-width port (R95): integers sign- or zero-extended, f32 in
`val[31:0]`, f64 as it is, a fixed-point value as its sign-extended `raw`. Other results have no such packing. -/
def Value.portWord : Value → Option (BitVec 64)
  | .int v => some (BitVec.ofInt 64 v)
  | .f32 p => some (p.setWidth 64)
  | .f64 p => some p
  | .fixed raw _ => some (BitVec.ofInt 64 raw)
  | _ => none

/-- The opcode of an instruction name in the active map (R166). -/
def opcodeNamed (map : Option MemoryMap) (n : String) : Except Err Byte :=
  match map with
  | none => .error .noActiveMap
  | some m =>
    match m.instructions.find? (fun r => r.name == n) with
    | some r => .ok r.opcode
    | none => .error .unknownInstruction

/-- The opcode an instruction operand stands for: a number is never looked up (R181). -/
def opcodeOf (map : Option MemoryMap) : InstrRef → Except Err Byte
  | .opcode b => .ok b
  | .name n => opcodeNamed map n

end Sys2Proof.Machine
end

