-- ==== Sys2Proof/Machine/FieldCodec.lean ====
section
/-! DEFINITION. The FieldCodec operations (spec/40_field_codec.md): one shared decode and one shared encode, and a meaning per
type over them. -/

namespace Sys2Proof.Machine

/-- The value the most-significant-first bytes of a type stand for (R87, R125 to R134). -/
def interpret (t : PrimType) (m : Bytes) : Value :=
  match t with
  | .u8 | .u16 | .u32 => .int (uintOf m)
  | .i8 | .i16 | .i32 => .int (sintOf m)
  | .f32 => .f32 (BitVec.ofNat 32 (uintOf m))
  | .f64 => .f64 (BitVec.ofNat 64 (uintOf m))
  | .fxp32 => .fixed (sintOf m) 16
  | .fxp16 => .fixed (sintOf m) 6

/-- The common part of `FLD_DECODE` (R123): too few bytes are an error, bytes beyond the width are ignored. -/
def fieldDecode (t : PrimType) (bigend : Bool) (bs : Bytes) : Except Err Value :=
  if bs.length < t.width then .error .decodeError else .ok (interpret t (le bigend (bs.take t.width)))

/-- The common part of `FLD_ENCODE` (R135): refuse an integer outside the type's range, never wrap or saturate. -/
def fieldPack (t : PrimType) (bigend : Bool) (r : Int) : Except Err Bytes :=
  if r < t.lo ∨ t.hi < r then .error .encodeRangeError else .ok (le bigend (bytesOf t.width r))

/-- `round_nearest(n / d)` for `d > 0` (R147): the nearest integer; exactly halfway, the neighbour `FXP_TIE` chooses. -/
def roundNearest (n : Int) (d : Nat) : Int :=
  if 2 * (n % d) < d then n / d
  else if d < 2 * (n % d) then n / d + 1
  else if Config.fxpTieUp (n / d) then n / d + 1 else n / d

/-- The common part of the fixed-point encodes (R144, R145): a NaN or an infinity is out of range; otherwise round the value
times `2^scale` and pack. -/
def fixedPack (t : PrimType) (scale : Nat) (bigend : Bool) (v : RealOperand) : Except Err Bytes :=
  match ratioOf v with
  | none => .error .encodeRangeError
  | some (n, d) => fieldPack t bigend (roundNearest (n * 2 ^ scale) d)

/-- The decode of a described field by whoever walks a payload (R168, R311): a field with another element count than 1 is
`UnsupportedFeature`, a field of an unrecognised type `UnknownType` (R124). No operation of the block calls it. -/
def decodeField (f : FieldDescriptor) (bigend : Bool) (bs : Bytes) : Except Err Value :=
  if f.elementCount ≠ 1 then .error .unsupportedFeature
  else
    match typeOfName f.primitiveType with
    | none => .error .unknownType
    | some t => fieldDecode t bigend bs

/-- `FLD_WIDTH` (R122). -/
def execFldWidth (ty : BitVec 4) (s : State) : Host.Outcome State Fault Refusal :=
  .next (s.finish (.word (BitVec.ofNat 16 (byteWidth (typeOfCode ty)))))

/-- `FLD_DECODE.u8` (R125). -/
def execFldDecodeU8 (bs : Bytes) (s : State) : Host.Outcome State Fault Refusal :=
  .next (s.answer (fieldDecode .u8 s.bigend bs))

/-- `FLD_DECODE.i8` (R126). -/
def execFldDecodeI8 (bs : Bytes) (s : State) : Host.Outcome State Fault Refusal :=
  .next (s.answer (fieldDecode .i8 s.bigend bs))

/-- `FLD_DECODE.u16` (R127). -/
def execFldDecodeU16 (bs : Bytes) (s : State) : Host.Outcome State Fault Refusal :=
  .next (s.answer (fieldDecode .u16 s.bigend bs))

/-- `FLD_DECODE.i16` (R128). -/
def execFldDecodeI16 (bs : Bytes) (s : State) : Host.Outcome State Fault Refusal :=
  .next (s.answer (fieldDecode .i16 s.bigend bs))

/-- `FLD_DECODE.u32` (R129). -/
def execFldDecodeU32 (bs : Bytes) (s : State) : Host.Outcome State Fault Refusal :=
  .next (s.answer (fieldDecode .u32 s.bigend bs))

/-- `FLD_DECODE.i32` (R130). -/
def execFldDecodeI32 (bs : Bytes) (s : State) : Host.Outcome State Fault Refusal :=
  .next (s.answer (fieldDecode .i32 s.bigend bs))

/-- `FLD_DECODE.f32` (R131). -/
def execFldDecodeF32 (bs : Bytes) (s : State) : Host.Outcome State Fault Refusal :=
  .next (s.answer (fieldDecode .f32 s.bigend bs))

/-- `FLD_DECODE.f64` (R132). -/
def execFldDecodeF64 (bs : Bytes) (s : State) : Host.Outcome State Fault Refusal :=
  .next (s.answer (fieldDecode .f64 s.bigend bs))

/-- `FLD_DECODE.fxp32` (R133). -/
def execFldDecodeFxp32 (bs : Bytes) (s : State) : Host.Outcome State Fault Refusal :=
  .next (s.answer (fieldDecode .fxp32 s.bigend bs))

/-- `FLD_DECODE.fxp16` (R134). -/
def execFldDecodeFxp16 (bs : Bytes) (s : State) : Host.Outcome State Fault Refusal :=
  .next (s.answer (fieldDecode .fxp16 s.bigend bs))

/-- `FLD_DECODE` of type code 10: an unrecognised type (R124). -/
def execFldDecodeTy10 (_bs : Bytes) (s : State) : Host.Outcome State Fault Refusal :=
  .next (s.raise .unknownType)

/-- `FLD_DECODE` of type code 11: an unrecognised type (R124). -/
def execFldDecodeTy11 (_bs : Bytes) (s : State) : Host.Outcome State Fault Refusal :=
  .next (s.raise .unknownType)

/-- `FLD_DECODE` of type code 12: an unrecognised type (R124). -/
def execFldDecodeTy12 (_bs : Bytes) (s : State) : Host.Outcome State Fault Refusal :=
  .next (s.raise .unknownType)

/-- `FLD_DECODE` of type code 13: an unrecognised type (R124). -/
def execFldDecodeTy13 (_bs : Bytes) (s : State) : Host.Outcome State Fault Refusal :=
  .next (s.raise .unknownType)

/-- `FLD_DECODE` of type code 14: an unrecognised type (R124). -/
def execFldDecodeTy14 (_bs : Bytes) (s : State) : Host.Outcome State Fault Refusal :=
  .next (s.raise .unknownType)

/-- `FLD_DECODE` of type code 15: an unrecognised type (R124). -/
def execFldDecodeTy15 (_bs : Bytes) (s : State) : Host.Outcome State Fault Refusal :=
  .next (s.raise .unknownType)

/-- `FLD_ENCODE.u8` (R136). -/
def execFldEncodeU8 (v : IntOperand) (s : State) : Host.Outcome State Fault Refusal :=
  .next (s.answer ((fieldPack .u8 s.bigend (intOf v)).map .bytes))

/-- `FLD_ENCODE.i8` (R137). -/
def execFldEncodeI8 (v : IntOperand) (s : State) : Host.Outcome State Fault Refusal :=
  .next (s.answer ((fieldPack .i8 s.bigend (intOf v)).map .bytes))

/-- `FLD_ENCODE.u16` (R138). -/
def execFldEncodeU16 (v : IntOperand) (s : State) : Host.Outcome State Fault Refusal :=
  .next (s.answer ((fieldPack .u16 s.bigend (intOf v)).map .bytes))

/-- `FLD_ENCODE.i16` (R139). -/
def execFldEncodeI16 (v : IntOperand) (s : State) : Host.Outcome State Fault Refusal :=
  .next (s.answer ((fieldPack .i16 s.bigend (intOf v)).map .bytes))

/-- `FLD_ENCODE.u32` (R140). -/
def execFldEncodeU32 (v : IntOperand) (s : State) : Host.Outcome State Fault Refusal :=
  .next (s.answer ((fieldPack .u32 s.bigend (intOf v)).map .bytes))

/-- `FLD_ENCODE.i32` (R141). -/
def execFldEncodeI32 (v : IntOperand) (s : State) : Host.Outcome State Fault Refusal :=
  .next (s.answer ((fieldPack .i32 s.bigend (intOf v)).map .bytes))

/-- `FLD_ENCODE.f32` (R142). The operand is the pattern as the port word `val`; f32 wants `val[63:32] = 0` (R95). -/
def execFldEncodeF32 (val : BitVec 64) (s : State) : Host.Outcome State Fault Refusal :=
  .next (s.answer ((fieldPack .f32 s.bigend val.toNat).map .bytes))

/-- `FLD_ENCODE.f64` (R143). The operand is the pattern. -/
def execFldEncodeF64 (val : BitVec 64) (s : State) : Host.Outcome State Fault Refusal :=
  .next (s.answer ((fieldPack .f64 s.bigend val.toNat).map .bytes))

/-- `FLD_ENCODE.fxp32` (R144). -/
def execFldEncodeFxp32 (v : RealOperand) (s : State) : Host.Outcome State Fault Refusal :=
  .next (s.answer ((fixedPack .fxp32 16 s.bigend v).map .bytes))

/-- `FLD_ENCODE.fxp16` (R145). -/
def execFldEncodeFxp16 (v : RealOperand) (s : State) : Host.Outcome State Fault Refusal :=
  .next (s.answer ((fixedPack .fxp16 6 s.bigend v).map .bytes))

/-- `FLD_ENCODE` of type code 10: an unrecognised type (R124). -/
def execFldEncodeTy10 (_val : BitVec 64) (s : State) : Host.Outcome State Fault Refusal :=
  .next (s.raise .unknownType)

/-- `FLD_ENCODE` of type code 11: an unrecognised type (R124). -/
def execFldEncodeTy11 (_val : BitVec 64) (s : State) : Host.Outcome State Fault Refusal :=
  .next (s.raise .unknownType)

/-- `FLD_ENCODE` of type code 12: an unrecognised type (R124). -/
def execFldEncodeTy12 (_val : BitVec 64) (s : State) : Host.Outcome State Fault Refusal :=
  .next (s.raise .unknownType)

/-- `FLD_ENCODE` of type code 13: an unrecognised type (R124). -/
def execFldEncodeTy13 (_val : BitVec 64) (s : State) : Host.Outcome State Fault Refusal :=
  .next (s.raise .unknownType)

/-- `FLD_ENCODE` of type code 14: an unrecognised type (R124). -/
def execFldEncodeTy14 (_val : BitVec 64) (s : State) : Host.Outcome State Fault Refusal :=
  .next (s.raise .unknownType)

/-- `FLD_ENCODE` of type code 15: an unrecognised type (R124). -/
def execFldEncodeTy15 (_val : BitVec 64) (s : State) : Host.Outcome State Fault Refusal :=
  .next (s.raise .unknownType)

end Sys2Proof.Machine
end

