-- ==== Sys2Proof/Machine/PacketCodec.lean ====
section
/-! DEFINITION. The PacketCodec operations (spec/42_packet_codec.md). The checksum and the frame layout are the wire's, in
Decode.lean (R80 to R82, R180). -/

namespace Sys2Proof.Machine

/-- `encode(deviceId, instr, payload)` (R181), its errors in the order of R266. -/
def pktEncode (map : Option MemoryMap) (deviceId : Byte) (instr : InstrRef) (payload : Bytes) : Except Err Bytes :=
  match opcodeOf map instr with
  | .error e => .error e
  | .ok opcode =>
    if deviceId = 0xFF then .error .invalidDeviceId
    else if 253 < payload.length then .error .payloadTooLong
    else .ok (frameBytes deviceId opcode payload)

/-- `decode(window)` (R182): the Frame, with `checksumValid` its one condition code (R28). -/
def pktDecode (w : Bytes) : Except Err Frame :=
  match w with
  | h0 :: h1 :: deviceId :: len :: instruction :: c :: rest =>
    if h0 ≠ 0xFF ∨ h1 ≠ 0xFF ∨ deviceId = 0xFF ∨ len.toNat ≠ w.length - 4 then .error .malformedWindow
    else
      let payload := (c :: rest).dropLast
      .ok { deviceId := deviceId, instruction := instruction, payload := payload,
            checksumValid := (c :: rest).getLastD 0 == cks ([deviceId, len, instruction] ++ payload) }
  | _ => .error .parseError

/-- `PKT_CHECKSUM` (R180). -/
def execPktChecksum (bs : Bytes) (s : State) : Host.Outcome State Fault Refusal :=
  .next (s.finish (.byte (cks bs)))

/-- `PKT_ENCODE` (R181). -/
def execPktEncode (deviceId : Byte) (instr : InstrRef) (payload : Bytes) (s : State) : Host.Outcome State Fault Refusal :=
  .next (s.answer ((pktEncode s.map deviceId instr payload).map .bytes))

/-- `PKT_DECODE` (R182): a checksum mismatch is no error (R262). -/
def execPktDecode (window : Bytes) (s : State) : Host.Outcome State Fault Refusal :=
  .next (s.answer ((pktDecode window).map .frame))

end Sys2Proof.Machine
end

