-- ==== Sys2Proof/Machine/FrameReader.lean ====
section
/-! DEFINITION. The FrameReader (spec/43_frame_reader.md). -/

namespace Sys2Proof.Machine

/-- Whether a resynchronization rule applies to a buffer: steps (a) to (d) of R202, in their order (R267). -/
def resyncs (buf : Bytes) : Bool :=
  match buf with
  | [] => false
  | b0 :: rest =>
    b0 != 0xFF ||
    match rest with
    | [] => false
    | b1 :: rest =>
      b1 != 0xFF ||
      match rest with
      | [] => false
      | [b2] => b2 == 0xFF
      | _ :: b3 :: _ => decide (b3.toNat < 2)

/-- `normalise()` (R202): drop the oldest byte while a rule applies; the buffer left and the number of bytes dropped. -/
def normalise : Bytes → Bytes × Nat
  | [] => ([], 0)
  | b :: rest =>
    if resyncs (b :: rest) then ((normalise rest).1, (normalise rest).2 + 1) else (b :: rest, 0)

/-- Source rule 4 (R201): the buffer is a whole frame, `len(BUF) = 4 + BUF[3]`. -/
def complete (buf : Bytes) : Bool :=
  match buf with
  | _ :: _ :: _ :: len :: rest => rest.length == len.toNat
  | _ => false

/-- A receive event (R92). -/
inductive RxEvent where
  | byte (b : Byte)
  | timeout
  deriving DecidableEq, Repr

/-- What a consumed event does to the framer: the buffer after it, the event it emits, whether the cycle ends. -/
structure Taken where
  buf : Bytes
  event : Option Event
  ends : Bool
  deriving DecidableEq, Repr

/-- One consumed receive event, as a function of the buffer alone (R216): R201 for a byte, R203 for a timeout. None when the
completed window is one `PKT_DECODE` refuses, which R214 rules out. -/
def take (buf : Bytes) : RxEvent → Option Taken
  | .timeout => some { buf := [], event := some (.timeoutOut buf.length), ends := true }
  | .byte b =>
    let n := normalise (buf ++ [b])
    if complete n.1 then
      match pktDecode n.1 with
      | .ok f => some { buf := [], event := some (.frameOut n.1 f), ends := true }
      | .error _ => none
    else some { buf := n.1, event := if n.2 = 0 then none else some (.diag .framingError n.2), ends := false }

/-- `frames` (R216): fold R201 and R203 over a sequence of receive events from a buffer; the buffer left and the events
emitted. -/
def framesFrom (buf : Bytes) : List RxEvent → Option (Bytes × List Event)
  | [] => some (buf, [])
  | e :: es =>
    match take buf e with
    | none => none
    | some t =>
      match framesFrom t.buf es with
      | none => none
      | some (b, evs) => some (b, t.event.toList ++ evs)

/-- The framer consumes an event (R201, R203): `BUF`, `ACTIVE` and the event stream, in one step (R55). -/
def consume (e : RxEvent) (s : State) : Host.Outcome State Fault Refusal :=
  match take s.buf e with
  | none => .fault .windowRefused
  | some t => .next (((s.setBuf t.buf).setActive (!t.ends)).emitSome t.event)

/-- `RXBYTE` (R201). While `ACTIVE = 0` the framer takes nothing and the event stays with the transport (R215). -/
def execRxByte (b : Byte) (s : State) : Host.Outcome State Fault Refusal :=
  if s.active then consume (.byte b) s else .next (s.untake (byteWord b))

/-- `RXTIMEOUT` (R203). While `ACTIVE = 0` the framer takes nothing and the event stays with the transport (R215). -/
def execRxTimeout (ignored : Byte) (s : State) : Host.Outcome State Fault Refusal :=
  if s.active then consume .timeout s else .next (s.untake (timeoutWord ignored))

/-- `CYCLE_START` (R200): enabled when `ACTIVE = 0` and `ONESHOT = 1` or `RUN = 1`; otherwise the framer has no step and nothing
changes. -/
def execCycleStart (s : State) : Host.Outcome State Fault Refusal :=
  .next (if !s.active && (s.oneshot || s.run) then (s.setOneshot false).setActive true else s)

end Sys2Proof.Machine
end

