-- ==== Sys2Proof/Machine/MemoryMap.lean ====
section
/-! DEFINITION. The MemoryMap and InstructionTable operations (spec/41_memory_map.md). -/

namespace Sys2Proof.Machine

/-- The byte size of one element of an entry (R161): `FLD_WIDTH` of its type, 4 for an unrecognised name (R122). -/
def entryWidth (e : FieldEntry) : Nat := byteWidth (typeOfName e.primitiveType)

/-- The first address after a field list laid out from `a` (R161). -/
def endAddress (a : Nat) : List FieldEntry → Nat
  | [] => a
  | e :: es => endAddress (a + entryWidth e * e.elementCount.toNat) es

/-- The layout of a field list from address `a` (R161): contiguous, in declaration order, no padding. -/
def layoutFrom (a : Nat) : List FieldEntry → List FieldDescriptor
  | [] => []
  | e :: es =>
    { name := e.name, address := BitVec.ofNat 16 a, byteSize := BitVec.ofNat 16 (entryWidth e),
      elementCount := e.elementCount, writable := e.writable, primitiveType := e.primitiveType,
      toolTipFormatter := e.toolTipFormatter } :: layoutFrom (a + entryWidth e * e.elementCount.toNat) es

/-- `layout(fieldList)`: the first field is at address 0 (R59, R161). -/
def layout (es : List FieldEntry) : List FieldDescriptor := layoutFrom 0 es

/-- The total size of a laid-out list (R160, R161): the end of the last field, 0 if there is none. -/
def totalSize (fields : List FieldDescriptor) : Nat :=
  match fields.getLast? with
  | some f => f.address.toNat + f.byteSize.toNat * f.elementCount.toNat
  | none => 0

/-- The conditions `MAP_BUILD` checks (R170): (a) distinct field names, (b) no element count of 0, (c) at most 65536 bytes,
(d) distinct instruction names and distinct opcodes. -/
def wellFormedDef (d : VariantDef) : Bool :=
  decide ((d.fieldList.map (·.name)).Nodup) && d.fieldList.all (fun e => e.elementCount != 0) &&
    decide (endAddress 0 d.fieldList ≤ 65536) &&
    decide ((d.instructions.map (·.name)).Nodup) && decide ((d.instructions.map (·.opcode)).Nodup)

/-- The record `MAP_BUILD` builds (R160). -/
def mapOf (name : String) (d : VariantDef) : MemoryMap :=
  let fields := layout d.fieldList
  { variant := name, fields := fields,
    byAddress := fields.map fun f => (f.address, f),
    byName := fields.map fun f => (f.name, f),
    totalMemorySize := totalSize fields,
    instructions := d.instructions }

/-- `forVariant(name)` (R160): the map, or the first error of R266. -/
def buildMap (vs : Variants) (name : String) : Except Err MemoryMap :=
  match vs.lookup name with
  | none => .error .unknownVariant
  | some d => if wellFormedDef d then .ok (mapOf name d) else .error .malformedTable

/-- A variant composed of a base variant and an extension list (R169): the base's fields, then the extension's. -/
def composeVariant (base : VariantDef) (extension : List FieldEntry) (instructions : List InstructionRow) : VariantDef :=
  { fieldList := base.fieldList ++ extension, instructions := instructions }

/-- A lookup in the active map: `NoActiveMap` when there is none (R171). -/
def withMap (s : State) (f : MemoryMap → Value) : Except Err Value :=
  match s.map with
  | none => .error .noActiveMap
  | some m => .ok (f m)

/-- `MAP_BUILD` (R160). -/
def execMapBuild (name : String) (s : State) : Host.Outcome State Fault Refusal :=
  .next (match buildMap s.variants name with
    | .ok m => (s.setMap m).finish .unit
    | .error e => s.raise e)

/-- `MAP_FIELD_AT` (R163): by start address only. -/
def execMapFieldAt (address : BitVec 16) (s : State) : Host.Outcome State Fault Refusal :=
  .next (s.answer (withMap s fun m => .field (m.byAddress.lookup address)))

/-- `MAP_FIELD_NAMED` (R164): names compare exactly. -/
def execMapFieldNamed (name : String) (s : State) : Host.Outcome State Fault Refusal :=
  .next (s.answer (withMap s fun m => .field (m.byName.lookup name)))

/-- `MAP_ALL_NAMES` (R165): declaration order. -/
def execMapAllNames (s : State) : Host.Outcome State Fault Refusal :=
  .next (s.answer (withMap s fun m => .names (m.fields.map (·.name))))

/-- `INSTR_LOOKUP` (R166). -/
def execInstrLookup (name : String) (s : State) : Host.Outcome State Fault Refusal :=
  .next (s.answer ((opcodeNamed s.map name).map .byte))

/-- `INSTR_NAME` (R167): an opcode with no row is not an error. -/
def execInstrName (opcode : Byte) (s : State) : Host.Outcome State Fault Refusal :=
  .next (s.answer (withMap s fun m =>
    .row ((m.instructions.find? fun r => r.opcode == opcode).map fun r => (r.name, r.description))))

end Sys2Proof.Machine
end

