-- ==== Sys2Proof/Machine/Wire.lean ====
section
/-! DEFINITION. What passes on the wire (spec/30_encoding.md R80 to R85, R90; spec/20_memory.md R51): the bytes of a frame, or
the one instruction byte `PING`, reach the transport in wire order, from which the framer takes them one receive event at a
time. -/

namespace Sys2Proof.Machine

/-- `FRAME` (R80 to R82): its `4 + L` bytes arrive at the transport in the order R51 writes them (log entry 10). -/
def execFrame (deviceId instruction : Byte) (payload : Bytes) (s : State) : Host.Outcome State Fault Refusal :=
  .next (s.deliver (frameBytes deviceId instruction payload))

/-- `PING` (R90): the wire instruction byte `0x01` arrives at the transport; the framer does not look at its value (R84; log
entry 10). -/
def execPing (s : State) : Host.Outcome State Fault Refusal :=
  .next (s.deliver [0x01])

end Sys2Proof.Machine
end

