-- ==== Sys2Proof/Machine/Dispatch.lean ====
section
/-! DEFINITION. One arm per constructor of Instr, each a direct call of its meaning. -/

namespace Sys2Proof.Machine

def exec (i : Instr) (s : State) : Host.Outcome State Fault Refusal :=
  match i with
  | .fldWidth ty => Sys2Proof.Machine.execFldWidth ty s
  | .fldDecodeU8 bs => Sys2Proof.Machine.execFldDecodeU8 bs s
  | .fldDecodeI8 bs => Sys2Proof.Machine.execFldDecodeI8 bs s
  | .fldDecodeU16 bs => Sys2Proof.Machine.execFldDecodeU16 bs s
  | .fldDecodeI16 bs => Sys2Proof.Machine.execFldDecodeI16 bs s
  | .fldDecodeU32 bs => Sys2Proof.Machine.execFldDecodeU32 bs s
  | .fldDecodeI32 bs => Sys2Proof.Machine.execFldDecodeI32 bs s
  | .fldDecodeF32 bs => Sys2Proof.Machine.execFldDecodeF32 bs s
  | .fldDecodeF64 bs => Sys2Proof.Machine.execFldDecodeF64 bs s
  | .fldDecodeFxp32 bs => Sys2Proof.Machine.execFldDecodeFxp32 bs s
  | .fldDecodeFxp16 bs => Sys2Proof.Machine.execFldDecodeFxp16 bs s
  | .fldDecodeTy10 bs => Sys2Proof.Machine.execFldDecodeTy10 bs s
  | .fldDecodeTy11 bs => Sys2Proof.Machine.execFldDecodeTy11 bs s
  | .fldDecodeTy12 bs => Sys2Proof.Machine.execFldDecodeTy12 bs s
  | .fldDecodeTy13 bs => Sys2Proof.Machine.execFldDecodeTy13 bs s
  | .fldDecodeTy14 bs => Sys2Proof.Machine.execFldDecodeTy14 bs s
  | .fldDecodeTy15 bs => Sys2Proof.Machine.execFldDecodeTy15 bs s
  | .fldEncodeU8 v => Sys2Proof.Machine.execFldEncodeU8 v s
  | .fldEncodeI8 v => Sys2Proof.Machine.execFldEncodeI8 v s
  | .fldEncodeU16 v => Sys2Proof.Machine.execFldEncodeU16 v s
  | .fldEncodeI16 v => Sys2Proof.Machine.execFldEncodeI16 v s
  | .fldEncodeU32 v => Sys2Proof.Machine.execFldEncodeU32 v s
  | .fldEncodeI32 v => Sys2Proof.Machine.execFldEncodeI32 v s
  | .fldEncodeF32 val => Sys2Proof.Machine.execFldEncodeF32 val s
  | .fldEncodeF64 val => Sys2Proof.Machine.execFldEncodeF64 val s
  | .fldEncodeFxp32 v => Sys2Proof.Machine.execFldEncodeFxp32 v s
  | .fldEncodeFxp16 v => Sys2Proof.Machine.execFldEncodeFxp16 v s
  | .fldEncodeTy10 val => Sys2Proof.Machine.execFldEncodeTy10 val s
  | .fldEncodeTy11 val => Sys2Proof.Machine.execFldEncodeTy11 val s
  | .fldEncodeTy12 val => Sys2Proof.Machine.execFldEncodeTy12 val s
  | .fldEncodeTy13 val => Sys2Proof.Machine.execFldEncodeTy13 val s
  | .fldEncodeTy14 val => Sys2Proof.Machine.execFldEncodeTy14 val s
  | .fldEncodeTy15 val => Sys2Proof.Machine.execFldEncodeTy15 val s
  | .mapBuild name => Sys2Proof.Machine.execMapBuild name s
  | .mapFieldAt address => Sys2Proof.Machine.execMapFieldAt address s
  | .mapFieldNamed name => Sys2Proof.Machine.execMapFieldNamed name s
  | .mapAllNames => Sys2Proof.Machine.execMapAllNames s
  | .instrLookup name => Sys2Proof.Machine.execInstrLookup name s
  | .instrName opcode => Sys2Proof.Machine.execInstrName opcode s
  | .pktChecksum bs => Sys2Proof.Machine.execPktChecksum bs s
  | .pktEncode deviceId instr payload => Sys2Proof.Machine.execPktEncode deviceId instr payload s
  | .pktDecode window => Sys2Proof.Machine.execPktDecode window s
  | .rxOne => Sys2Proof.Machine.execRxOne s
  | .csrRead n => Sys2Proof.Machine.execCsrRead n s
  | .csrWrite n v => Sys2Proof.Machine.execCsrWrite n v s
  | .illegalCommand header => Sys2Proof.Machine.execIllegalCommand header s
  | .rxByte b => Sys2Proof.Machine.execRxByte b s
  | .rxTimeout ignored => Sys2Proof.Machine.execRxTimeout ignored s
  | .cycleStart => Sys2Proof.Machine.execCycleStart s
  | .frame deviceId instruction payload => Sys2Proof.Machine.execFrame deviceId instruction payload s
  | .ping => Sys2Proof.Machine.execPing s

end Sys2Proof.Machine
end

