-- ==== Sys2Proof/Machine/Step.lean ====
section
/-! DEFINITION. One step of the machine: the agent whose turn it is takes its item, and the operation the decoder reads from it
is executed (spec/00_scope.md R5, spec/20_memory.md R55, R60). -/

namespace Sys2Proof.Machine

/-- One atomic step (R55). -/
def step (s : State) : Host.Outcome State Fault Refusal :=
  match fetch s with
  | none => .next s.idle
  | some (e, t) =>
    match decode e with
    | .ok i => exec i t
    | .error _ => .next (t.rejected e)

/-- The item a table row's bits stand for, put where the next step takes it (log entry 5). A receive event is taken only in an
active cycle, so `ACTIVE` is set for it (R201); the internal step only when it is enabled (R200). -/
def State.withFetchWord (s : State) (nbits w : Nat) : State :=
  match tableItem nbits w with
  | .command c => { s with turns := .command :: s.turns, commands := c :: s.commands }
  | .rx e => { s with turns := .receive :: s.turns, received := e :: s.received, active := true }
  | .internal => { s with turns := .cycleStart :: s.turns, active := false, oneshot := true }
  | .wire bs => { s with turns := .wire :: s.turns, wire := bs :: s.wire }

end Sys2Proof.Machine
end

