-- ==== Sys2Proof/Safety.lean ====
section
/-! DEFINITION. What counts as a good state, in the terms the statements use: the buffer's normal form (R204, R205), a map that
is the record `MAP_BUILD` makes (R27, R160), events with the contents R264 gives them; and the byte strings free of false
headers (R210). -/

namespace Sys2Proof.Machine

/-- Normal form of a buffer (R204, R21). -/
def normalForm : Bytes → Bool
  | [] => true
  | [b0] => b0 == 0xFF
  | [b0, b1] => b0 == 0xFF && b1 == 0xFF
  | [b0, b1, b2] => b0 == 0xFF && b1 == 0xFF && b2 != 0xFF
  | b0 :: b1 :: b2 :: b3 :: rest =>
    b0 == 0xFF && b1 == 0xFF && b2 != 0xFF && decide (2 ≤ b3.toNat) && decide (rest.length < b3.toNat)

/-- The framer's invariant (R205): the buffer is in normal form, and empty while no cycle is active. -/
def FramerOk (s : State) : Prop := normalForm s.buf = true ∧ (s.active = false → s.buf = [])

/-- The active map is `none` or what `MAP_BUILD` makes of a well-formed definition in `VARIANTS` (R27, R160, R170). -/
def MapOk (s : State) : Prop :=
  ∀ m, s.map = some m → ∃ d, s.variants.lookup m.variant = some d ∧ wellFormedDef d = true ∧ m = mapOf m.variant d

/-- An event with the contents R264 gives it: a window of 6 to 259 bytes with the Frame `PKT_DECODE` reads from it; at most 258
discarded bytes; a `FramingError` with 1 to 4 dropped bytes. -/
def EventOk : Event → Prop
  | .frameOut raw f => 6 ≤ raw.length ∧ raw.length ≤ 259 ∧ pktDecode raw = .ok f
  | .timeoutOut n => n ≤ 258
  | .diag e d => e = .framingError ∧ 1 ≤ d ∧ d ≤ 4

/-- The machine's invariant. -/
def MachineOk (s : State) : Prop := FramerOk s ∧ MapOk s ∧ ∀ e ∈ s.events, EventOk e

/-- A byte string free of false headers (R210): nowhere `FF FF x` with `x` not `FF`, followed by the end of the string or by a
byte of at least 2. -/
def freeOfFalseHeaders : Bytes → Bool
  | [] => true
  | b :: rest =>
    !(match b :: rest with
      | [b0, b1, b2] => b0 == 0xFF && b1 == 0xFF && b2 != 0xFF
      | b0 :: b1 :: b2 :: b3 :: _ => b0 == 0xFF && b1 == 0xFF && b2 != 0xFF && decide (2 ≤ b3.toNat)
      | _ => false) &&
    freeOfFalseHeaders rest

/-- Whether an event is a diagnostic. -/
def Event.isDiag : Event → Bool
  | .diag _ _ => true
  | _ => false

/-- The event word that carries a receive event (R92). -/
def RxEvent.word : RxEvent → BitVec 9
  | .byte b => byteWord b
  | .timeout => timeoutWord 0

/-- The schedule that lets the framer take `n` receive events, each after its internal step (R60, R216). -/
def receiveTurns : Nat → List Turn
  | 0 => []
  | n + 1 => .cycleStart :: .receive :: receiveTurns n

end Sys2Proof.Machine
end

