-- ==== Sys2Proof/Certificates/Slice0/Obligations.lean ====
section
/-! DEFINITION. The statements for the provers, from the numbered rules of spec/. An equation `exec i s = .next …` whose right
side is `s` with some fields updated is also the frame of `i`: every field not named is unchanged. -/

open Sys2Proof Sys2Proof.Machine

/-! ### Encodings -/

/-- Decode and encode agree on every well-formed instruction (R80, R92, R93, R97). -/
def Obligations.DecodeInvertsEncode : Prop :=
  ∀ i : Instr, i.wellFormed = true → decode (encode i) = .ok i

/-- No bit of a command header and no bit of a receive event word is dropped by decoding (R93, R96). That `RXTIMEOUT` keeps
bits 7:0, which R92 ignores, and that `ILLEGAL_COMMAND` keeps its header, is the model's representation (log entry 18): no rule
of the spec asks for it. -/
def Obligations.DecodingKeepsEveryPortBit : Prop :=
  (∀ c : Command, ∃ o : Lanes, encode (decodeCommand c) = .command ⟨c.header, o⟩) ∧
  (∀ w : BitVec 9, encode (decodeRx w) = .rx w)

/-- The wire decoder reads a frame from exactly the byte strings R80 to R83 call frames. -/
def Obligations.WireDecoderReadsExactlyFrames : Prop :=
  ∀ (t : Bytes) (deviceId instruction : Byte) (payload : Bytes),
    decode (.wire t) = .ok (.frame deviceId instruction payload) ↔
      deviceId ≠ 0xFF ∧ payload.length ≤ 253 ∧
      t = [0xFF, 0xFF, deviceId, BitVec.ofNat 8 (payload.length + 2), instruction] ++ payload ++
        [BitVec.ofNat 8 (255 - (deviceId.toNat + (payload.length + 2) + instruction.toNat +
          (payload.map BitVec.toNat).sum) % 256)]

/-- A few words of every port decode to the instruction they stand for (R80, R90, R92 to R94, R97); how the words of the receive
port and of the wire are numbered for the table is the model's choice (log entry 5). -/
def Obligations.SampleWordsDecode : Prop :=
  decodeTableWord 16 0x1009 = some (.fldWidth 9) ∧ decodeTableWord 16 0x1103 = some (.fldDecodeI16 []) ∧
  decodeTableWord 16 0x1208 = some (.fldEncodeFxp32 (.port 0)) ∧ decodeTableWord 16 0x2100 = some (.mapFieldAt 0) ∧
  decodeTableWord 16 0x3200 = some (.pktDecode []) ∧ decodeTableWord 16 0x4102 = some (.csrRead 2) ∧
  decodeTableWord 16 0x3101 = some (.illegalCommand 0x3101) ∧ decodeTableWord 16 0x0037 = some (.rxByte 0x37) ∧
  decodeTableWord 16 0x0100 = some (.rxTimeout 0) ∧ decodeTableWord 8 0x01 = some .ping ∧
  decodeTableWord 48 0xF7010205FFFF = some (.frame 5 1 [])

/-- A step takes the item of the agent whose turn it is and runs the instruction its decoder reads (R55, R60); a transmission
that is no frame reaches the transport byte by byte. Whose turn it is, is the model's schedule (log entry 8); the last clause,
what becomes of such a transmission, is the model's choice too, made from R51 and R283 (log entry 10). -/
def Obligations.StepRunsDecodedInstruction : Prop :=
  (∀ (s : State) ts c cs, s.turns = .command :: ts → s.commands = c :: cs →
    step s = exec (decodeCommand c) { s with turns := ts, commands := cs }) ∧
  (∀ (s : State) ts w ws, s.turns = .receive :: ts → s.received = w :: ws →
    step s = exec (decodeRx w) { s with turns := ts, received := ws }) ∧
  (∀ (s : State) ts, s.turns = .cycleStart :: ts → step s = exec .cycleStart { s with turns := ts }) ∧
  (∀ (s : State) ts t rest i, s.turns = .wire :: ts → s.wire = t :: rest → decode (.wire t) = .ok i →
    step s = exec i { s with turns := ts, wire := rest }) ∧
  (∀ (s : State) ts t rest r, s.turns = .wire :: ts → s.wire = t :: rest → decode (.wire t) = .error r →
    step s = .next (({ s with turns := ts, wire := rest } : State).deliver t))

/-- A header that no row of R97 matches is `ILLEGAL_COMMAND`: its response is the error, and nothing else changes (R243). -/
def Obligations.IllegalHeadersRaiseIllegalCommand : Prop :=
  (∀ (h : Word) (o : Lanes), (∀ r ∈ headerRows, h &&& r.1 ≠ r.2) → decodeCommand ⟨h, o⟩ = .illegalCommand h) ∧
  (∀ (h : Word) (s : State), exec (.illegalCommand h) s =
    .next { s with responses := s.responses ++ [⟨0x16, none⟩] })

/-! ### FieldCodec -/

/-- `FLD_WIDTH` by type code, and the width by type name (R122). -/
def Obligations.FldWidthAnswersWidth : Prop :=
  (∀ (ty : BitVec 4) (o : Lanes) (s : State),
    decodeCommand ⟨0x1000 + ty.setWidth 16, o⟩ = .fldWidth ty ∧
    exec (.fldWidth ty) s = .next { s with responses := s.responses ++ [⟨0x00, some (.word
      (if ty = 0 ∨ ty = 1 then 1 else if ty = 2 ∨ ty = 3 ∨ ty = 9 then 2 else if ty = 7 then 8 else 4))⟩] }) ∧
  (∀ n : String, byteWidth (typeOfName n) =
    if n = "u8" ∨ n = "i8" then 1 else if n = "u16" ∨ n = "i16" ∨ n = "fxp16" then 2 else if n = "f64" then 8 else 4)

/-- `FLD_DECODE.u8` and `.i8` (R125, R126): the byte, unsigned or two's complement; `DecodeError` on no byte. -/
def Obligations.FldDecodeOneByteTypes : Prop :=
  ∀ (s : State) (b : Byte) (rest : Bytes) (o : Lanes),
    decodeCommand ⟨0x1100, o⟩ = .fldDecodeU8 o.bytes ∧ decodeCommand ⟨0x1101, o⟩ = .fldDecodeI8 o.bytes ∧
    exec (.fldDecodeU8 (b :: rest)) s = .next { s with responses := s.responses ++ [⟨0x00, some (.int b.toNat)⟩] } ∧
    exec (.fldDecodeI8 (b :: rest)) s = .next { s with responses := s.responses ++ [⟨0x00, some (.int b.toInt)⟩] } ∧
    exec (.fldDecodeU8 []) s = .next { s with responses := s.responses ++ [⟨0x04, none⟩] } ∧
    exec (.fldDecodeI8 []) s = .next { s with responses := s.responses ++ [⟨0x04, none⟩] }

/-- `FLD_DECODE.u16`, `.i16` and `.fxp16` (R127, R128, R134): two bytes in the order of `BIGEND`, any further byte ignored;
`DecodeError` on fewer. -/
def Obligations.FldDecodeTwoByteTypes : Prop :=
  (∀ (s : State) (b0 b1 : Byte) (rest : Bytes) (m : BitVec 16), m = (if s.bigend then b0 ++ b1 else b1 ++ b0) →
    exec (.fldDecodeU16 (b0 :: b1 :: rest)) s =
      .next { s with responses := s.responses ++ [⟨0x00, some (.int m.toNat)⟩] } ∧
    exec (.fldDecodeI16 (b0 :: b1 :: rest)) s =
      .next { s with responses := s.responses ++ [⟨0x00, some (.int m.toInt)⟩] } ∧
    exec (.fldDecodeFxp16 (b0 :: b1 :: rest)) s =
      .next { s with responses := s.responses ++ [⟨0x00, some (.fixed m.toInt 6)⟩] }) ∧
  (∀ (s : State) (bs : Bytes), bs.length < 2 →
    exec (.fldDecodeU16 bs) s = .next { s with responses := s.responses ++ [⟨0x04, none⟩] } ∧
    exec (.fldDecodeI16 bs) s = .next { s with responses := s.responses ++ [⟨0x04, none⟩] } ∧
    exec (.fldDecodeFxp16 bs) s = .next { s with responses := s.responses ++ [⟨0x04, none⟩] }) ∧
  (∀ o : Lanes, decodeCommand ⟨0x1102, o⟩ = .fldDecodeU16 o.bytes ∧ decodeCommand ⟨0x1103, o⟩ = .fldDecodeI16 o.bytes ∧
    decodeCommand ⟨0x1109, o⟩ = .fldDecodeFxp16 o.bytes)

/-- `FLD_DECODE.u32`, `.i32`, `.f32` and `.fxp32` (R129 to R131, R133): four bytes in the order of `BIGEND`; `DecodeError` on
fewer. -/
def Obligations.FldDecodeFourByteTypes : Prop :=
  (∀ (s : State) (b0 b1 b2 b3 : Byte) (rest : Bytes) (m : BitVec 32),
    m = (if s.bigend then b0 ++ b1 ++ b2 ++ b3 else b3 ++ b2 ++ b1 ++ b0) →
    exec (.fldDecodeU32 (b0 :: b1 :: b2 :: b3 :: rest)) s =
      .next { s with responses := s.responses ++ [⟨0x00, some (.int m.toNat)⟩] } ∧
    exec (.fldDecodeI32 (b0 :: b1 :: b2 :: b3 :: rest)) s =
      .next { s with responses := s.responses ++ [⟨0x00, some (.int m.toInt)⟩] } ∧
    exec (.fldDecodeF32 (b0 :: b1 :: b2 :: b3 :: rest)) s =
      .next { s with responses := s.responses ++ [⟨0x00, some (.f32 m)⟩] } ∧
    exec (.fldDecodeFxp32 (b0 :: b1 :: b2 :: b3 :: rest)) s =
      .next { s with responses := s.responses ++ [⟨0x00, some (.fixed m.toInt 16)⟩] }) ∧
  (∀ (s : State) (bs : Bytes), bs.length < 4 →
    exec (.fldDecodeU32 bs) s = .next { s with responses := s.responses ++ [⟨0x04, none⟩] } ∧
    exec (.fldDecodeI32 bs) s = .next { s with responses := s.responses ++ [⟨0x04, none⟩] } ∧
    exec (.fldDecodeF32 bs) s = .next { s with responses := s.responses ++ [⟨0x04, none⟩] } ∧
    exec (.fldDecodeFxp32 bs) s = .next { s with responses := s.responses ++ [⟨0x04, none⟩] }) ∧
  (∀ o : Lanes, decodeCommand ⟨0x1104, o⟩ = .fldDecodeU32 o.bytes ∧ decodeCommand ⟨0x1105, o⟩ = .fldDecodeI32 o.bytes ∧
    decodeCommand ⟨0x1106, o⟩ = .fldDecodeF32 o.bytes ∧ decodeCommand ⟨0x1108, o⟩ = .fldDecodeFxp32 o.bytes)

/-- `FLD_DECODE.f64` (R132): eight bytes in the order of `BIGEND`, no arithmetic; `DecodeError` on fewer. -/
def Obligations.FldDecodeEightByteType : Prop :=
  (∀ (s : State) (b0 b1 b2 b3 b4 b5 b6 b7 : Byte) (rest : Bytes) (m : BitVec 64),
    m = (if s.bigend then b0 ++ b1 ++ b2 ++ b3 ++ b4 ++ b5 ++ b6 ++ b7
         else b7 ++ b6 ++ b5 ++ b4 ++ b3 ++ b2 ++ b1 ++ b0) →
    exec (.fldDecodeF64 (b0 :: b1 :: b2 :: b3 :: b4 :: b5 :: b6 :: b7 :: rest)) s =
      .next { s with responses := s.responses ++ [⟨0x00, some (.f64 m)⟩] }) ∧
  (∀ (s : State) (bs : Bytes), bs.length < 8 →
    exec (.fldDecodeF64 bs) s = .next { s with responses := s.responses ++ [⟨0x04, none⟩] }) ∧
  (∀ o : Lanes, decodeCommand ⟨0x1107, o⟩ = .fldDecodeF64 o.bytes)

/-- `FLD_DECODE` and `FLD_ENCODE` on type codes 10 to 15 raise `UnknownType`, write no state and produce no bytes (R124). -/
def Obligations.UnrecognisedTypesRaiseUnknownType : Prop :=
  (∀ (ty : BitVec 4) (o : Lanes) (s : State), 10 ≤ ty.toNat →
    exec (decodeCommand ⟨0x1100 + ty.setWidth 16, o⟩) s = .next { s with responses := s.responses ++ [⟨0x13, none⟩] } ∧
    exec (decodeCommand ⟨0x1200 + ty.setWidth 16, o⟩) s = .next { s with responses := s.responses ++ [⟨0x13, none⟩] }) ∧
  (∀ (s : State) (bs : Bytes), ∀ i ∈ [Instr.fldDecodeTy10 bs, .fldDecodeTy11 bs, .fldDecodeTy12 bs, .fldDecodeTy13 bs,
    .fldDecodeTy14 bs, .fldDecodeTy15 bs], exec i s = .next { s with responses := s.responses ++ [⟨0x13, none⟩] }) ∧
  (∀ (s : State) (v : BitVec 64), ∀ i ∈ [Instr.fldEncodeTy10 v, .fldEncodeTy11 v, .fldEncodeTy12 v, .fldEncodeTy13 v,
    .fldEncodeTy14 v, .fldEncodeTy15 v], exec i s = .next { s with responses := s.responses ++ [⟨0x13, none⟩] })

/-- `FLD_ENCODE.u8`, `.i8`, `.u16`, `.i16` (R136 to R139): their headers and the lane they read, and what they answer to an
operand that stands for the integer `v`, typed or as a port word (R95). -/
def Obligations.FldEncodeNarrowIntegers : Prop :=
  (∀ l : Lanes, decodeCommand ⟨0x1200, l⟩ = .fldEncodeU8 l.int ∧ decodeCommand ⟨0x1201, l⟩ = .fldEncodeI8 l.int ∧
    decodeCommand ⟨0x1202, l⟩ = .fldEncodeU16 l.int ∧ decodeCommand ⟨0x1203, l⟩ = .fldEncodeI16 l.int) ∧
  ∀ (s : State) (o : IntOperand) (v : Int), (o = .value v ∨ ∃ val : BitVec 64, o = .port val ∧ v = val.toInt) →
    exec (.fldEncodeU8 o) s = .next { s with responses := s.responses ++
      [if 0 ≤ v ∧ v ≤ 255 then ⟨0x00, some (.bytes [BitVec.ofInt 8 v])⟩ else ⟨0x14, none⟩] } ∧
    exec (.fldEncodeI8 o) s = .next { s with responses := s.responses ++
      [if -128 ≤ v ∧ v ≤ 127 then ⟨0x00, some (.bytes [BitVec.ofInt 8 v])⟩ else ⟨0x14, none⟩] } ∧
    exec (.fldEncodeU16 o) s = .next { s with responses := s.responses ++
      [if 0 ≤ v ∧ v ≤ 65535 then ⟨0x00, some (.bytes
        (if s.bigend then [BitVec.ofInt 8 (v / 256), BitVec.ofInt 8 v] else [BitVec.ofInt 8 v, BitVec.ofInt 8 (v / 256)]))⟩
       else ⟨0x14, none⟩] } ∧
    exec (.fldEncodeI16 o) s = .next { s with responses := s.responses ++
      [if -32768 ≤ v ∧ v ≤ 32767 then ⟨0x00, some (.bytes
        (if s.bigend then [BitVec.ofInt 8 (v / 256), BitVec.ofInt 8 v] else [BitVec.ofInt 8 v, BitVec.ofInt 8 (v / 256)]))⟩
       else ⟨0x14, none⟩] }

/-- `FLD_ENCODE.u32`, `.i32` (R140, R141): their headers and the lane they read, and what they answer to an operand that stands
for the integer `v`. -/
def Obligations.FldEncodeWideIntegers : Prop :=
  (∀ l : Lanes, decodeCommand ⟨0x1204, l⟩ = .fldEncodeU32 l.int ∧ decodeCommand ⟨0x1205, l⟩ = .fldEncodeI32 l.int) ∧
  ∀ (s : State) (o : IntOperand) (v : Int) (bs : Bytes),
    (o = .value v ∨ ∃ val : BitVec 64, o = .port val ∧ v = val.toInt) →
    bs = [BitVec.ofInt 8 v, BitVec.ofInt 8 (v / 256), BitVec.ofInt 8 (v / 65536), BitVec.ofInt 8 (v / 16777216)] →
    exec (.fldEncodeU32 o) s = .next { s with responses := s.responses ++
      [if 0 ≤ v ∧ v ≤ 4294967295 then ⟨0x00, some (.bytes (if s.bigend then bs.reverse else bs))⟩ else ⟨0x14, none⟩] } ∧
    exec (.fldEncodeI32 o) s = .next { s with responses := s.responses ++
      [if -2147483648 ≤ v ∧ v ≤ 2147483647 then ⟨0x00, some (.bytes (if s.bigend then bs.reverse else bs))⟩
       else ⟨0x14, none⟩] }

/-- `FLD_ENCODE.f32` and `.f64` (R142, R143): their headers and the lane they read; the pattern's bytes, no arithmetic; f32
refuses a port word with `val[63:32] ≠ 0`. -/
def Obligations.FldEncodePatterns : Prop :=
  (∀ l : Lanes, decodeCommand ⟨0x1206, l⟩ = .fldEncodeF32 l.val ∧ decodeCommand ⟨0x1207, l⟩ = .fldEncodeF64 l.val) ∧
  ∀ (s : State) (val : BitVec 64) (b : Nat → Byte), (∀ k, b k = val.extractLsb' (8 * k) 8) →
    exec (.fldEncodeF32 val) s = .next { s with responses := s.responses ++
      [if val.extractLsb' 32 32 = 0 then ⟨0x00, some (.bytes
        (if s.bigend then [b 3, b 2, b 1, b 0] else [b 0, b 1, b 2, b 3]))⟩ else ⟨0x14, none⟩] } ∧
    exec (.fldEncodeF64 val) s = .next { s with responses := s.responses ++
      [⟨0x00, some (.bytes (if s.bigend then [b 7, b 6, b 5, b 4, b 3, b 2, b 1, b 0]
        else [b 0, b 1, b 2, b 3, b 4, b 5, b 6, b 7]))⟩] }

/-- `FLD_ENCODE.fxp32` and `.fxp16` (R144, R145): their headers and the lane they read; of a rational, `round_nearest` of the
scaled value (R147), an integer within 1/2 of it, is packed, or refused when it is out of range; a port word that is an infinity
or a NaN is refused. That these are the words with bits 62:52 all ones is IEEE 754's layout, which no rule of the spec gives
(R88): PRESUMED, log entry 11. -/
def Obligations.FldEncodeFixedRoundsToNearest : Prop :=
  (∀ l : Lanes, decodeCommand ⟨0x1208, l⟩ = .fldEncodeFxp32 l.real ∧ decodeCommand ⟨0x1209, l⟩ = .fldEncodeFxp16 l.real) ∧
  (∀ (s : State) (q : Rat), ∃ r : Int, r = roundNearest (q * 65536).num (q * 65536).den ∧ |q * 65536 - r| ≤ 1 / 2 ∧
    exec (.fldEncodeFxp32 (.value q)) s = .next { s with responses := s.responses ++
      [if -2147483648 ≤ r ∧ r ≤ 2147483647 then ⟨0x00, some (.bytes
        (if s.bigend then [BitVec.ofInt 8 (r / 16777216), BitVec.ofInt 8 (r / 65536), BitVec.ofInt 8 (r / 256),
          BitVec.ofInt 8 r] else [BitVec.ofInt 8 r, BitVec.ofInt 8 (r / 256), BitVec.ofInt 8 (r / 65536),
          BitVec.ofInt 8 (r / 16777216)]))⟩ else ⟨0x14, none⟩] }) ∧
  (∀ (s : State) (q : Rat), ∃ r : Int, r = roundNearest (q * 64).num (q * 64).den ∧ |q * 64 - r| ≤ 1 / 2 ∧
    exec (.fldEncodeFxp16 (.value q)) s = .next { s with responses := s.responses ++
      [if -32768 ≤ r ∧ r ≤ 32767 then ⟨0x00, some (.bytes
        (if s.bigend then [BitVec.ofInt 8 (r / 256), BitVec.ofInt 8 r]
         else [BitVec.ofInt 8 r, BitVec.ofInt 8 (r / 256)]))⟩ else ⟨0x14, none⟩] }) ∧
  (∀ (s : State) (val : BitVec 64), (val.extractLsb' 52 11).toNat = 2047 →
    exec (.fldEncodeFxp32 (.port val)) s = .next { s with responses := s.responses ++ [⟨0x14, none⟩] } ∧
    exec (.fldEncodeFxp16 (.port val)) s = .next { s with responses := s.responses ++ [⟨0x14, none⟩] })

/-- A finite binary64 port word stands for the rational IEEE 754 gives it (R95; the places of its fields are PRESUMED, log
entry 11): the fixed-point encodes answer as for that rational. -/
def Obligations.FixedPortOperandIsItsRational : Prop :=
  ∀ (s : State) (val : BitVec 64) (e f : Nat) (q : Rat), e = (val.extractLsb' 52 11).toNat →
    f = (val.extractLsb' 0 52).toNat → e ≠ 2047 →
    q = (if val.msb then -1 else 1) * (if e = 0 then (f : Rat) / 2 ^ 1074
      else ((2 ^ 52 + f : Nat) : Rat) * 2 ^ ((e : Int) - 1075)) →
    exec (.fldEncodeFxp32 (.port val)) s = exec (.fldEncodeFxp32 (.value q)) s ∧
    exec (.fldEncodeFxp16 (.port val)) s = exec (.fldEncodeFxp16 (.value q)) s

/-- `round_nearest` (R147): an integer is itself, anything else one of its neighbours within 1/2, an exact half the neighbour
`FXP_TIE` chooses, as a function of the value alone. -/
def Obligations.RoundNearestMeetsItsRule : Prop :=
  ∀ (n : Int) (d : Nat), 0 < d →
    |(roundNearest n d : Rat) - n / d| ≤ 1 / 2 ∧
    (∀ k : Int, n = k * d → roundNearest n d = k) ∧
    (∀ k : Int, 2 * n = (2 * k + 1) * d → roundNearest n d = if Config.fxpTieUp k then k + 1 else k) ∧
    (∀ (n' : Int) (d' : Nat), 0 < d' → n * d' = n' * d → roundNearest n' d' = roundNearest n d)

/-- The round trips of the FieldCodec (R146): encode then decode gives the value back, bytes beyond the width ignored; decode
then encode gives the first `w` bytes back; a fixed-point value off the grid comes back within half a step. -/
def Obligations.FieldCodecRoundTrips : Prop :=
  ∃ valueOf : PrimType → Int → Value,
    (∀ v, valueOf .f32 v = .f32 (BitVec.ofInt 32 v) ∧ valueOf .f64 v = .f64 (BitVec.ofInt 64 v) ∧
      valueOf .fxp32 v = .fixed v 16 ∧ valueOf .fxp16 v = .fixed v 6 ∧
      ∀ t, t ∈ [PrimType.u8, .i8, .u16, .i16, .u32, .i32] → valueOf t v = .int v) ∧
    (∀ (t : PrimType) (be : Bool) (v : Int), t.lo ≤ v → v ≤ t.hi →
      ∃ bs, fieldPack t be v = .ok bs ∧ bs.length = t.width ∧ ∀ rest, fieldDecode t be (bs ++ rest) = .ok (valueOf t v)) ∧
    (∀ (t : PrimType) (be : Bool) (bs : Bytes), t.width ≤ bs.length →
      ∃ v, fieldDecode t be bs = .ok (valueOf t v) ∧ fieldPack t be v = .ok (bs.take t.width)) ∧
    (∀ (be : Bool) (q : Rat) (bs : Bytes), fixedPack .fxp32 16 be (.value q) = .ok bs →
      ∃ raw : Int, fieldDecode .fxp32 be bs = .ok (.fixed raw 16) ∧ |(raw : Rat) / 2 ^ 16 - q| ≤ 1 / 2 ^ 17 ∧
        ((q * 2 ^ 16).den = 1 → (raw : Rat) / 2 ^ 16 = q)) ∧
    (∀ (be : Bool) (q : Rat) (bs : Bytes), fixedPack .fxp16 6 be (.value q) = .ok bs →
      ∃ raw : Int, fieldDecode .fxp16 be bs = .ok (.fixed raw 6) ∧ |(raw : Rat) / 2 ^ 6 - q| ≤ 1 / 2 ^ 7 ∧
        ((q * 2 ^ 6).den = 1 → (raw : Rat) / 2 ^ 6 = q))

/-- A decoded value travels in its 64-bit port word without loss (R95): an integer as its two's complement, an f32 pattern in
`val[31:0]` with `val[63:32] = 0`, an f64 pattern as it is, a fixed-point value as its sign-extended `raw`; encoding the word of
an integer or of a pattern gives the bytes back. -/
def Obligations.PortWordCarriesDecodedValue : Prop :=
  (∀ (t : PrimType) (be : Bool) (bs : Bytes), t ∈ [PrimType.u8, .i8, .u16, .i16, .u32, .i32] → t.width ≤ bs.length →
    ∃ n w, fieldDecode t be bs = .ok (.int n) ∧ (Value.int n).portWord = some w ∧ w.toInt = n ∧
      fieldPack t be (intOf (.port w)) = .ok (bs.take t.width)) ∧
  (∀ (be : Bool) (bs : Bytes), 4 ≤ bs.length →
    ∃ p w, fieldDecode .f32 be bs = .ok (.f32 p) ∧ (Value.f32 p).portWord = some w ∧ w.extractLsb' 0 32 = p ∧
      w.extractLsb' 32 32 = 0 ∧ fieldPack .f32 be w.toNat = .ok (bs.take 4)) ∧
  (∀ (be : Bool) (bs : Bytes), 8 ≤ bs.length →
    ∃ p, fieldDecode .f64 be bs = .ok (.f64 p) ∧ (Value.f64 p).portWord = some p ∧
      fieldPack .f64 be p.toNat = .ok (bs.take 8)) ∧
  (∀ (be : Bool) (bs : Bytes), 4 ≤ bs.length →
    ∃ raw w, fieldDecode .fxp32 be bs = .ok (.fixed raw 16) ∧ (Value.fixed raw 16).portWord = some w ∧ w.toInt = raw ∧
      fieldPack .fxp32 be w.toInt = .ok (bs.take 4)) ∧
  (∀ (be : Bool) (bs : Bytes), 2 ≤ bs.length →
    ∃ raw w, fieldDecode .fxp16 be bs = .ok (.fixed raw 6) ∧ (Value.fixed raw 6).portWord = some w ∧ w.toInt = raw ∧
      fieldPack .fxp16 be w.toInt = .ok (bs.take 2))

/-! ### MemoryMap and InstructionTable -/

/-- `MAP_BUILD` (R160, R170): a well-formed definition replaces `MAP` whole and nothing else is written; an unknown name raises
`UnknownVariant`, a definition that breaks a condition of R170 `MalformedTable`, and then the old map stays. -/
def Obligations.MapBuildReplacesMapOrRefuses : Prop :=
  (∀ o : Lanes, decodeCommand ⟨0x2000, o⟩ = .mapBuild o.name) ∧
  (∀ (s : State) (name : String), s.variants.lookup name = none →
    exec (.mapBuild name) s = .next { s with responses := s.responses ++ [⟨0x06, none⟩] }) ∧
  ∀ (s : State) (name : String) (d : VariantDef) (fields : List FieldDescriptor) (total : Nat),
    s.variants.lookup name = some d → fields = layout d.fieldList →
    total = (d.fieldList.map fun e => byteWidth (typeOfName e.primitiveType) * e.elementCount.toNat).sum →
    ((d.fieldList.map (·.name)).Nodup ∧ (∀ e ∈ d.fieldList, e.elementCount ≠ 0) ∧ total ≤ 65536 ∧
        (d.instructions.map (·.name)).Nodup ∧ (d.instructions.map (·.opcode)).Nodup →
      exec (.mapBuild name) s = .next { s with
        map := some { variant := name, fields := fields, byAddress := fields.map fun f => (f.address, f),
                      byName := fields.map fun f => (f.name, f), totalMemorySize := total,
                      instructions := d.instructions }
        responses := s.responses ++ [⟨0x00, some .unit⟩] }) ∧
    (¬ (d.fieldList.map (·.name)).Nodup ∨ (∃ e ∈ d.fieldList, e.elementCount = 0) ∨ 65536 < total ∨
        ¬ (d.instructions.map (·.name)).Nodup ∨ ¬ (d.instructions.map (·.opcode)).Nodup →
      exec (.mapBuild name) s = .next { s with responses := s.responses ++ [⟨0x15, none⟩] })

/-- Layout (R161): field `i` starts where the sizes of the fields before it end, and the total size is the sum of all. -/
def Obligations.LayoutIsContiguous : Prop :=
  ∀ (es : List FieldEntry) (size : FieldEntry → Nat),
    (∀ e, size e = byteWidth (typeOfName e.primitiveType) * e.elementCount.toNat) →
    (∀ e ∈ es, e.elementCount ≠ 0) → (es.map size).sum ≤ 65536 →
    (layout es).length = es.length ∧ totalSize (layout es) = (es.map size).sum ∧
    ∀ (i : Nat) (e : FieldEntry), es[i]? = some e → ∃ f, (layout es)[i]? = some f ∧
      f.address.toNat = ((es.take i).map size).sum ∧ f.byteSize.toNat = byteWidth (typeOfName e.primitiveType) ∧
      f.name = e.name ∧ f.elementCount = e.elementCount ∧ f.writable = e.writable ∧
      f.primitiveType = e.primitiveType ∧ f.toolTipFormatter = e.toolTipFormatter

/-- A composed variant appends fields: every base field keeps its descriptor, address included (R169). -/
def Obligations.CompositionKeepsBaseFields : Prop :=
  ∀ (base : VariantDef) (ext : List FieldEntry) (rows : List InstructionRow) (i : Nat) (f : FieldDescriptor),
    (layout base.fieldList)[i]? = some f → (layout (composeVariant base ext rows).fieldList)[i]? = some f

/-- The field lookups in a built map (R163 to R165): a field by its start address and by its exact name, none for any other
address or name, and the names in declaration order; `NoActiveMap` without a map. That declaration order is ascending address
order is the spec's own inference in R165, "[derived: from rule R161 and rule R170 (b)]". -/
def Obligations.FieldLookupsInBuiltMap : Prop :=
  (∀ o : Lanes, decodeCommand ⟨0x2100, o⟩ = .mapFieldAt o.address ∧ decodeCommand ⟨0x2200, o⟩ = .mapFieldNamed o.name ∧
    decodeCommand ⟨0x2300, o⟩ = .mapAllNames) ∧
  (∀ (s : State) (name : String) (d : VariantDef), wellFormedDef d = true → s.map = some (mapOf name d) →
    (∀ f ∈ layout d.fieldList,
      exec (.mapFieldAt f.address) s = .next { s with responses := s.responses ++ [⟨0x00, some (.field (some f))⟩] } ∧
      exec (.mapFieldNamed f.name) s = .next { s with responses := s.responses ++ [⟨0x00, some (.field (some f))⟩] }) ∧
    (∀ a, (∀ f ∈ layout d.fieldList, f.address ≠ a) →
      exec (.mapFieldAt a) s = .next { s with responses := s.responses ++ [⟨0x00, some (.field none)⟩] }) ∧
    (∀ n, (∀ e ∈ d.fieldList, e.name ≠ n) →
      exec (.mapFieldNamed n) s = .next { s with responses := s.responses ++ [⟨0x00, some (.field none)⟩] }) ∧
    exec .mapAllNames s =
      .next { s with responses := s.responses ++ [⟨0x00, some (.names (d.fieldList.map (·.name)))⟩] } ∧
    (layout d.fieldList).map (·.name) = d.fieldList.map (·.name) ∧
    ((layout d.fieldList).map fun f => f.address.toNat).Pairwise (· < ·)) ∧
  ∀ (s : State) (a : BitVec 16) (n : String), s.map = none → ∀ i ∈ [Instr.mapFieldAt a, .mapFieldNamed n, .mapAllNames],
    exec i s = .next { s with responses := s.responses ++ [⟨0x17, none⟩] }

/-- The instruction table's lookups in a built map (R166, R167), and `NoActiveMap` without one. -/
def Obligations.InstructionLookupsInBuiltMap : Prop :=
  (∀ o : Lanes, decodeCommand ⟨0x2400, o⟩ = .instrLookup o.name ∧ decodeCommand ⟨0x2500, o⟩ = .instrName o.byte) ∧
  (∀ (s : State) (name : String) (d : VariantDef), wellFormedDef d = true → s.map = some (mapOf name d) →
    (∀ r ∈ d.instructions,
      exec (.instrLookup r.name) s = .next { s with responses := s.responses ++ [⟨0x00, some (.byte r.opcode)⟩] } ∧
      exec (.instrName r.opcode) s =
        .next { s with responses := s.responses ++ [⟨0x00, some (.row (some (r.name, r.description)))⟩] }) ∧
    (∀ n, (∀ r ∈ d.instructions, r.name ≠ n) →
      exec (.instrLookup n) s = .next { s with responses := s.responses ++ [⟨0x05, none⟩] }) ∧
    (∀ c, (∀ r ∈ d.instructions, r.opcode ≠ c) →
      exec (.instrName c) s = .next { s with responses := s.responses ++ [⟨0x00, some (.row none)⟩] })) ∧
  ∀ (s : State) (n : String) (c : Byte), s.map = none → ∀ i ∈ [Instr.instrLookup n, .instrName c],
    exec i s = .next { s with responses := s.responses ++ [⟨0x17, none⟩] }

/-- Every lookup raises `NoActiveMap` when `MAP = none` (R171). -/
def Obligations.LookupsWithoutMapRaiseNoActiveMap : Prop :=
  ∀ (s : State) (a : BitVec 16) (n : String) (c : Byte), s.map = none →
    ∀ i ∈ [Instr.mapFieldAt a, .mapFieldNamed n, .mapAllNames, .instrLookup n, .instrName c],
      exec i s = .next { s with responses := s.responses ++ [⟨0x17, none⟩] }

/-! ### PacketCodec -/

/-- `PKT_CHECKSUM` (R180): 255 minus the sum modulo 256, for any byte string. -/
def Obligations.PktChecksumAnswersChecksum : Prop :=
  ∀ (s : State) (bs : Bytes) (o : Lanes), decodeCommand ⟨0x3000, o⟩ = .pktChecksum o.bytes ∧
    exec (.pktChecksum bs) s = .next { s with responses := s.responses ++
      [⟨0x00, some (.byte (BitVec.ofNat 8 (255 - (bs.map BitVec.toNat).sum % 256)))⟩] }

/-- The laws of the checksum (R186): a truncated sum, the sum with its checksum, permutations, one changed byte, and two changed
bytes that cancel. -/
def Obligations.ChecksumLaws : Prop :=
  (∀ s : Bytes, cks s = ~~~(BitVec.ofNat 8 (s.map BitVec.toNat).sum)) ∧
  (∀ s : Bytes, ((s.map BitVec.toNat).sum + (cks s).toNat) % 256 = 255) ∧
  (∀ s t : Bytes, s.Perm t → cks s = cks t) ∧
  (∀ (a b : Bytes) (x y : Byte), x ≠ y → cks (a ++ [x] ++ b) ≠ cks (a ++ [y] ++ b)) ∧
  (∀ (a b c : Bytes) (x y : Byte), cks (a ++ [x + 1] ++ b ++ [y - 1] ++ c) = cks (a ++ [x] ++ b ++ [y] ++ c))

/-- `PKT_ENCODE` (R181): of a number, the frame, `InvalidDeviceId` or `PayloadTooLong`; of a name the active map gives an opcode,
as for that opcode; of any other name `UnknownInstruction`, without a map `NoActiveMap`, before anything else is tested. -/
def Obligations.PktEncodeBuildsFrameOrRefuses : Prop :=
  (∀ (s : State) (deviceId opcode : Byte) (payload body : Bytes),
    body = [deviceId, BitVec.ofNat 8 (2 + payload.length), opcode] ++ payload →
    exec (.pktEncode deviceId (.opcode opcode) payload) s = .next { s with responses := s.responses ++
      [if deviceId = 0xFF then ⟨0x11, none⟩ else if 253 < payload.length then ⟨0x12, none⟩
       else ⟨0x00, some (.bytes ([0xFF, 0xFF] ++ body ++
        [BitVec.ofNat 8 (255 - (body.map BitVec.toNat).sum % 256)]))⟩] }) ∧
  (∀ (s : State) (m : MemoryMap) (r : InstructionRow) (deviceId : Byte) (payload : Bytes), s.map = some m →
    r ∈ m.instructions → (m.instructions.map (·.name)).Nodup →
    exec (.pktEncode deviceId (.name r.name) payload) s = exec (.pktEncode deviceId (.opcode r.opcode) payload) s) ∧
  (∀ (s : State) m n deviceId payload, s.map = some m → (∀ r ∈ m.instructions, r.name ≠ n) →
    exec (.pktEncode deviceId (.name n) payload) s = .next { s with responses := s.responses ++ [⟨0x05, none⟩] }) ∧
  (∀ (s : State) n deviceId payload, s.map = none → exec (.pktEncode deviceId (.name n) payload) s =
    .next { s with responses := s.responses ++ [⟨0x17, none⟩] }) ∧
  (∀ o : Lanes, decodeCommand ⟨0x3100, o⟩ = .pktEncode o.byte o.instr o.bytes)

/-- `PKT_DECODE` (R182): the Frame of a window cut by its length byte; `ParseError` below 6 bytes, `MalformedWindow` for any
other window. -/
def Obligations.PktDecodeReadsWindow : Prop :=
  (∀ (s : State) (deviceId len instruction c : Byte) (payload : Bytes), deviceId ≠ 0xFF → len.toNat = payload.length + 2 →
    exec (.pktDecode ([0xFF, 0xFF, deviceId, len, instruction] ++ payload ++ [c])) s =
      .next { s with responses := s.responses ++ [⟨0x00, some (.frame
        { deviceId := deviceId, instruction := instruction, payload := payload,
          checksumValid := decide (c.toNat = 255 -
            (deviceId.toNat + len.toNat + instruction.toNat + (payload.map BitVec.toNat).sum) % 256) })⟩] }) ∧
  (∀ (s : State) (w : Bytes), w.length < 6 →
    exec (.pktDecode w) s = .next { s with responses := s.responses ++ [⟨0x03, none⟩] }) ∧
  (∀ (s : State) (w : Bytes), 6 ≤ w.length →
    (w[0]? ≠ some 0xFF ∨ w[1]? ≠ some 0xFF ∨ w[2]? = some 0xFF ∨ w[3]?.map BitVec.toNat ≠ some (w.length - 4)) →
    exec (.pktDecode w) s = .next { s with responses := s.responses ++ [⟨0x10, none⟩] }) ∧
  (∀ o : Lanes, decodeCommand ⟨0x3200, o⟩ = .pktDecode o.bytes)

/-- Every Frame `PKT_DECODE` returns meets the Frame's invariants (R183). -/
def Obligations.DecodedFramesMeetInvariants : Prop :=
  ∀ (w : Bytes) (f : Frame), pktDecode w = .ok f →
    w[3]?.map BitVec.toNat = some (f.payload.length + 2) ∧ f.deviceId ≠ 0xFF ∧ f.payload.length ≤ 253

/-- Encode then decode gives the operands back with the checksum valid (R184). -/
def Obligations.PacketRoundTrip : Prop :=
  ∀ (m : Option MemoryMap) (deviceId opcode : Byte) (payload : Bytes), deviceId ≠ 0xFF → payload.length ≤ 253 →
    ∃ f, pktEncode m deviceId (.opcode opcode) payload = .ok f ∧
      pktDecode f = .ok { deviceId := deviceId, instruction := opcode, payload := payload, checksumValid := true }

/-- A frame with one corrupted byte never decodes as valid: a header byte or the length byte gives `MalformedWindow`, the device
id `MalformedWindow` if it became `FF`, and any other byte a Frame flagged invalid (R185). -/
def Obligations.SingleByteCorruptionIsSeen : Prop :=
  ∀ (m : Option MemoryMap) (deviceId opcode : Byte) (payload f : Bytes) (k : Nat) (v : Byte),
    pktEncode m deviceId (.opcode opcode) payload = .ok f → k < f.length → f[k]? ≠ some v →
    if k = 0 ∨ k = 1 ∨ k = 3 ∨ (k = 2 ∧ v = 0xFF) then pktDecode (f.set k v) = .error .malformedWindow
    else ∃ fr, pktDecode (f.set k v) = .ok fr ∧ fr.checksumValid = false

/-! ### FrameReader -/

/-- `CYCLE_START` (R200): when enabled, by either flag or both, it clears `ONESHOT` and sets `ACTIVE`; `RUN` stays. -/
def Obligations.CycleStartWhenEnabled : Prop :=
  ∀ s : State, s.active = false → (s.oneshot = true ∨ s.run = true) →
    exec .cycleStart s = .next { s with oneshot := false, active := true }

/-- The transition table of `RXBYTE` (R212). -/
def Obligations.RxByteTransitionTable : Prop :=
  ∀ (s : State) (b : Byte), s.active = true →
    (s.buf = [] → b = 0xFF → exec (.rxByte b) s = .next { s with buf := [0xFF] }) ∧
    (s.buf = [] → b ≠ 0xFF → exec (.rxByte b) s = .next { s with events := s.events ++ [.diag .framingError 1] }) ∧
    (s.buf = [0xFF] → b = 0xFF → exec (.rxByte b) s = .next { s with buf := [0xFF, 0xFF] }) ∧
    (s.buf = [0xFF] → b ≠ 0xFF →
      exec (.rxByte b) s = .next { s with buf := [], events := s.events ++ [.diag .framingError 2] }) ∧
    (s.buf = [0xFF, 0xFF] → b = 0xFF →
      exec (.rxByte b) s = .next { s with events := s.events ++ [.diag .framingError 1] }) ∧
    (s.buf = [0xFF, 0xFF] → b ≠ 0xFF → exec (.rxByte b) s = .next { s with buf := [0xFF, 0xFF, b] }) ∧
    (∀ id, id ≠ 0xFF → s.buf = [0xFF, 0xFF, id] → 2 ≤ b.toNat →
      exec (.rxByte b) s = .next { s with buf := [0xFF, 0xFF, id, b] }) ∧
    (∀ id, id ≠ 0xFF → s.buf = [0xFF, 0xFF, id] → b.toNat < 2 →
      exec (.rxByte b) s = .next { s with buf := [], events := s.events ++ [.diag .framingError 4] }) ∧
    (∀ id len rest, id ≠ 0xFF → s.buf = 0xFF :: 0xFF :: id :: len :: rest → 2 ≤ len.toNat → rest.length + 1 < len.toNat →
      exec (.rxByte b) s = .next { s with buf := s.buf ++ [b] }) ∧
    (∀ id len op payload, id ≠ 0xFF → s.buf = 0xFF :: 0xFF :: id :: len :: op :: payload → len.toNat = payload.length + 2 →
      exec (.rxByte b) s = .next { s with
        buf := [], active := false
        events := s.events ++ [.frameOut (s.buf ++ [b])
          { deviceId := id, instruction := op, payload := payload,
            checksumValid := decide (b = cks ([id, len, op] ++ payload)) }] })

/-- `RXTIMEOUT` (R203): the partial buffer is discarded, the cycle ends, and the count is reported. -/
def Obligations.RxTimeoutEndsCycle : Prop :=
  ∀ (s : State) (x : Byte), s.active = true → decodeRx (1#1 ++ x) = .rxTimeout x ∧
    exec (.rxTimeout x) s =
      .next { s with buf := [], active := false, events := s.events ++ [.timeoutOut s.buf.length] }

/-- While `ACTIVE = 0` the framer takes nothing from the transport: what the transport holds stays, in order (R215;
the queue that holds it is the model's, log entries 8 and 12). -/
def Obligations.NothingIsTakenOutsideCycle : Prop :=
  (∀ (s : State) ts, s.active = false → s.turns = .receive :: ts → step s = .next { s with turns := ts }) ∧
  (∀ (s : State) (b : Byte), s.active = false →
    exec (.rxByte b) s = .next { s with received := (0#1 ++ b) :: s.received } ∧
    exec (.rxTimeout b) s = .next { s with received := (1#1 ++ b) :: s.received })

/-- A buffer in normal form has at most 258 bytes, the step's buffer at most 259, and a step that drops bytes ends with at most
2 and completes no frame (R206, R207). -/
def Obligations.BufferBounds : Prop :=
  ∀ (buf : Bytes) (b : Byte), normalForm buf = true →
    buf.length ≤ 258 ∧ (buf ++ [b]).length ≤ 259 ∧
    (0 < (normalise (buf ++ [b])).2 → (normalise (buf ++ [b])).1.length ≤ 2 ∧ complete (normalise (buf ++ [b])).1 = false) ∧
    (complete (normalise (buf ++ [b])).1 = true → 6 ≤ (normalise (buf ++ [b])).1.length)

/-- Resynchronization (R210): between garbage free of false headers a valid frame is emitted once, at its last byte, and the
garbage gives diagnostics only. -/
def Obligations.ResynchronizesBetweenCleanGarbage : Prop :=
  ∀ (g h payload f : Bytes) (deviceId opcode : Byte), freeOfFalseHeaders g = true → freeOfFalseHeaders h = true →
    deviceId ≠ 0xFF → payload.length ≤ 253 → f = frameBytes deviceId opcode payload →
    ∃ before after partialBuf lastBuf,
      framesFrom [] ((g ++ f.dropLast).map .byte) = some (partialBuf, before) ∧
      framesFrom [] ((g ++ f).map .byte) = some ([], before ++ [.frameOut f ⟨deviceId, opcode, payload, true⟩]) ∧
      framesFrom [] ((g ++ f ++ h).map .byte) =
        some (lastBuf, before ++ [.frameOut f ⟨deviceId, opcode, payload, true⟩] ++ after) ∧
      ∀ e ∈ before ++ after, e.isDiag = true

/-- False-header capture (R211): after `FF FF x L` the next `L` bytes, whatever they are, come out as one frame, and scanning
goes on after them with an empty buffer. -/
def Obligations.FalseHeaderCapturesBytes : Prop :=
  ∀ (x len op c : Byte) (payload : Bytes), x ≠ 0xFF → len.toNat = payload.length + 2 →
    framesFrom [] (([0xFF, 0xFF, x, len, op] ++ payload ++ [c]).map .byte) =
      some ([], [.frameOut ([0xFF, 0xFF, x, len, op] ++ payload ++ [c])
        ⟨x, op, payload, decide (c = cks ([x, len, op] ++ payload))⟩])

/-- The framer as a function (R216): with `RUN = 1`, steps that take a sequence of receive events, each after the framer's own
step, emit exactly the events of `frames` and leave its buffer. The turns are the model's schedule (log entry 8). -/
def Obligations.RunOfReceiveStepsComputesFrames : Prop :=
  ∀ (es : List RxEvent) (s : State), FramerOk s → s.run = true →
    s.received = es.map RxEvent.word → s.turns = receiveTurns es.length →
    ∃ buf evs s', framesFrom s.buf es = some (buf, evs) ∧
      Host.Core.run Sys2Proof.core (2 * es.length) s = .next s' ∧
      s'.buf = buf ∧ s'.events = s.events ++ evs ∧ s'.received = [] ∧ s'.responses = s.responses ∧ s'.map = s.map

/-- From every state whose framer is in order a step answers a next state: no operation stops the block (R214, R270). -/
def Obligations.StepAlwaysAnswersNext : Prop :=
  ∀ s : State, FramerOk s → ∃ s', step s = .next s'

/-- Every step keeps the machine's invariant: the buffer's normal form (R205), the map (R27, R160), the contents of the events
(R264). -/
def Obligations.StepKeepsMachineOk : Prop :=
  ∀ s s' : State, MachineOk s → step s = .next s' → MachineOk s'

/-- The machine's invariant holds after reset (R40, R205). -/
def Obligations.ResetIsMachineOk : Prop := MachineOk State.reset

/-! ### Control -/

/-- `RX_ONE` (R240): sets `ONESHOT`, whatever it was. -/
def Obligations.RxOneSetsOneshot : Prop :=
  ∀ (s : State) (o : Lanes), decodeCommand ⟨0x4000, o⟩ = .rxOne ∧
    exec .rxOne s = .next { s with oneshot := true, responses := s.responses ++ [⟨0x00, some .unit⟩] }

/-- `CSR_READ` (R241, with the layouts of R31 to R33): the registers show the flags, the state name and the length of a buffer
in normal form; any other number is `IllegalCommand`; nothing else changes. -/
def Obligations.CsrReadShowsState : Prop :=
  (∀ (n : Byte) (o : Lanes), decodeCommand ⟨0x4100 + n.setWidth 16, o⟩ = .csrRead n) ∧
  (∀ s : State, exec (.csrRead 0) s = .next { s with responses := s.responses ++
    [⟨0x00, some (.word (BitVec.ofNat 16 (s.run.toNat + 2 * s.bigend.toNat)))⟩] }) ∧
  (∀ s : State, normalForm s.buf = true →
    exec (.csrRead 1) s = .next { s with responses := s.responses ++
      [⟨0x00, some (.word (BitVec.ofNat 16 (s.active.toNat + 2 * s.oneshot.toNat + 4 * min s.buf.length 5 +
        32 * s.map.isSome.toNat)))⟩] } ∧
    exec (.csrRead 2) s = .next { s with responses := s.responses ++
      [⟨0x00, some (.word (BitVec.ofNat 16 s.buf.length))⟩] }) ∧
  (∀ (s : State) (n : Byte), 2 < n.toNat →
    exec (.csrRead n) s = .next { s with responses := s.responses ++ [⟨0x16, none⟩] })

/-- `CSR_WRITE` (R242): both fields of `CTRL` at once, the other bits ignored; any other register is `IllegalCommand`. -/
def Obligations.CsrWriteSetsCtrl : Prop :=
  (∀ (n : Byte) (o : Lanes), decodeCommand ⟨0x4200 + n.setWidth 16, o⟩ = .csrWrite n o.word) ∧
  (∀ (s : State) (v : Word), exec (.csrWrite 0 v) s = .next { s with
    run := v.getLsbD 0, bigend := v.getLsbD 1, responses := s.responses ++ [⟨0x00, some .unit⟩] }) ∧
  (∀ (s : State) (n : Byte) (v : Word), n ≠ 0 →
    exec (.csrWrite n v) s = .next { s with responses := s.responses ++ [⟨0x16, none⟩] })

/-! ### The whole machine -/

/-- Every host command, whatever its header and operands, answers one response and touches neither the framer's buffer nor its
events (R56, R261); a command that answers an error writes no state (R270). -/
def Obligations.CommandsAnswerOnceAndErrorsWriteNothing : Prop :=
  ∀ (c : Command) (s : State), ∃ r s', exec (decodeCommand c) s = .next s' ∧ s'.responses = s.responses ++ [r] ∧
    s'.buf = s.buf ∧ s'.active = s.active ∧ s'.events = s.events ∧ s'.variants = s.variants ∧
    s'.commands = s.commands ∧ s'.received = s.received ∧ s'.wire = s.wire ∧ s'.arrivals = s.arrivals ∧
    s'.turns = s.turns ∧ (r.status = 0x00 → r.value.isSome = true) ∧
    (r.status ≠ 0x00 → r.value = none ∧ s' = { s with responses := s.responses ++ [r] })

/-- Who writes what (R23 to R27): only `MAP_BUILD` changes `MAP`, only `CSR_WRITE` `RUN` and `BIGEND`, only `RX_ONE` and
`CYCLE_START` `ONESHOT`, only the framer `ACTIVE` and `BUF`; nothing changes `VARIANTS`. -/
def Obligations.EachFlagHasItsWriters : Prop :=
  ∀ (i : Instr) (s s' : State), exec i s = .next s' →
    (s'.map ≠ s.map → ∃ n, i = .mapBuild n) ∧
    (s'.run ≠ s.run ∨ s'.bigend ≠ s.bigend → ∃ v, i = .csrWrite 0 v) ∧
    (s'.oneshot ≠ s.oneshot → i = .rxOne ∨ i = .cycleStart) ∧
    (s'.active ≠ s.active → i = .cycleStart ∨ (∃ b, i = .rxByte b) ∨ ∃ x, i = .rxTimeout x) ∧
    (s'.buf ≠ s.buf → (∃ b, i = .rxByte b) ∨ ∃ x, i = .rxTimeout x) ∧
    s'.variants = s.variants

/-- The event stream is append-only, and an instruction emits at most one event, which only the framer's receive events do
(R201, R265, R271). -/
def Obligations.EventsOnlyAppended : Prop :=
  ∀ (i : Instr) (s s' : State), exec i s = .next s' →
    s'.events = s.events ∨ ∃ e, s'.events = s.events ++ [e] ∧ ((∃ b, i = .rxByte b) ∨ ∃ x, i = .rxTimeout x)

/-- A frame, and the instruction byte `PING`, on the wire reach the transport in wire order (R51); outside a cycle the transport
keeps or loses each byte by `RX_BACKLOG` (R215). The model's choice: log entries 3 and 10. -/
def Obligations.WireBytesReachTransport : Prop :=
  (∀ (s : State) (deviceId opcode : Byte) (payload : Bytes), s.active = true →
    exec (.frame deviceId opcode payload) s = .next { s with
      received := s.received ++ (frameBytes deviceId opcode payload).map (fun b => 0#1 ++ b)
      arrivals := s.arrivals + (payload.length + 6) }) ∧
  (∀ s : State, s.active = true →
    exec .ping s = .next { s with received := s.received ++ [0x001], arrivals := s.arrivals + 1 }) ∧
  (∀ (s : State) (deviceId opcode : Byte) (payload : Bytes), s.active = false →
    exec (.frame deviceId opcode payload) s = .next { s with
      received := s.received ++ (((frameBytes deviceId opcode payload).zipIdx s.arrivals).filter
        (fun p => Config.rxBacklog p.2)).map (fun p => 0#1 ++ p.1)
      arrivals := s.arrivals + (payload.length + 6) }) ∧
  (∀ s : State, s.active = false →
    exec .ping s = .next { s with
      received := s.received ++ (if Config.rxBacklog s.arrivals then [0x001] else []), arrivals := s.arrivals + 1 })

/-- A valid frame on the wire is received: with a cycle active, an empty buffer and nothing held by the transport, the frame's
bytes pass the transport and come out as one `FrameOut` with the checksum valid, and the cycle has ended (R80, R201, R210).
That wire bytes reach the transport so is the model's choice (log entry 10). -/
def Obligations.WireFrameIsReceived : Prop :=
  ∀ (s : State) (deviceId opcode : Byte) (payload f : Bytes), deviceId ≠ 0xFF → payload.length ≤ 253 →
    f = frameBytes deviceId opcode payload → s.active = true → s.buf = [] → s.received = [] → s.wire = [f] →
    s.turns = .wire :: receiveTurns f.length →
    ∃ s', Host.Core.run Sys2Proof.core (1 + 2 * f.length) s = .next s' ∧ s'.buf = [] ∧ s'.active = false ∧
      s'.events = s.events ++ [.frameOut f ⟨deviceId, opcode, payload, true⟩] ∧ s'.received = [] ∧
      s'.responses = s.responses

/-- The reset input (R300, R301): every piece of the block's state takes its reset value; the parameter `VARIANTS` and what the
transport holds stay. That the inputs the host and the bus have pending stay too, and that the responses already given are
cleared, is the model's choice (log entry 15). -/
def Obligations.ResetInputClearsTheBlock : Prop :=
  ∀ (s : State) ts, s.turns = .reset :: ts → step s = .next
    { State.reset with
      variants := s.variants, commands := s.commands, received := s.received, wire := s.wire,
      arrivals := s.arrivals, turns := ts }

/-- The values after reset (R40), the control registers included. -/
def Obligations.ResetValues : Prop :=
  State.reset.buf = [] ∧ State.reset.run = false ∧ State.reset.active = false ∧ State.reset.oneshot = false ∧
  State.reset.bigend = false ∧ State.reset.map = none ∧ State.reset.events = [] ∧
  ctrl State.reset = 0 ∧ status State.reset = 0 ∧ buflen State.reset = 0

/-- The stopped framer (R200, R285, R301): with `ACTIVE`, `ONESHOT` and `RUN` all 0 neither the transport's turn nor the
framer's changes anything, `CYCLE_START` that is not enabled changes nothing, and with no agent to move nothing happens. The
turns are the model's schedule, and that a step which is not enabled passes is its choice (log entries 8 and 12). -/
def Obligations.StoppedFramerStaysStopped : Prop :=
  (∀ (s : State) t ts, s.active = false → s.oneshot = false → s.run = false → s.turns = t :: ts →
    (t = .receive ∨ t = .cycleStart) → step s = .next { s with turns := ts }) ∧
  (∀ s : State, s.active = true ∨ (s.oneshot = false ∧ s.run = false) → exec .cycleStart s = .next s) ∧
  (∀ s : State, s.turns = [] → step s = .next s)
end

