-- ==== Sys2Proof/Laws/Bytes.lean ====
section
/-! SUPPORT. The small lemmas of byte strings as numbers, of the byte order and of the checksum. -/

namespace Sys2Proof.Machine

@[simp] theorem uintOf_nil : uintOf [] = 0 := rfl

theorem uintOf_cons (b : Byte) (bs : Bytes) : uintOf (b :: bs) = b.toNat * 256 ^ bs.length + uintOf bs := rfl

/-- A byte string of `w` bytes is below `256 ^ w`. -/
theorem uintOf_lt (bs : Bytes) : uintOf bs < 256 ^ bs.length := by
  induction bs with
  | nil => simp
  | cons b bs ih =>
    have hb : b.toNat ≤ 255 := by omega
    have : b.toNat * 256 ^ bs.length ≤ 255 * 256 ^ bs.length := Nat.mul_le_mul_right _ hb
    simp only [uintOf_cons, List.length_cons, pow_succ]
    omega

@[simp] theorem bytesOf_length (w : Nat) (v : Int) : (bytesOf w v).length = w := by
  induction w with
  | zero => rfl
  | succ w ih => simp [bytesOf, ih]

@[simp] theorem le_length (be : Bool) (bs : Bytes) : (le be bs).length = bs.length := by
  cases be <;> simp [le]

/-- `le` is its own inverse (R121). -/
@[simp] theorem le_le (be : Bool) (bs : Bytes) : le be (le be bs) = bs := by
  cases be <;> simp [le]

end Sys2Proof.Machine

namespace Sys2Proof

@[simp] theorem byteSum_nil : byteSum [] = 0 := rfl

@[simp] theorem byteSum_cons (b : Byte) (bs : Bytes) : byteSum (b :: bs) = b.toNat + byteSum bs := rfl

@[simp] theorem byteSum_append (a b : Bytes) : byteSum (a ++ b) = byteSum a + byteSum b := by
  induction a with
  | nil => simp
  | cons x a ih => simp [ih, Nat.add_assoc]

theorem byteSum_eq_sum (s : Bytes) : byteSum s = (s.map BitVec.toNat).sum := by
  induction s with
  | nil => rfl
  | cons b s ih => simp [ih]

theorem cks_toNat (s : Bytes) : (cks s).toNat = 255 - byteSum s % 256 := by
  simp [cks, BitVec.toNat_not, BitVec.toNat_ofNat]

theorem frameBody_length (deviceId instruction : Byte) (payload : Bytes) :
    (frameBody deviceId instruction payload).length = 3 + payload.length := by
  simp only [frameBody, List.length_append, List.length_cons, List.length_nil]

@[simp] theorem frameBytes_length (deviceId instruction : Byte) (payload : Bytes) :
    (frameBytes deviceId instruction payload).length = payload.length + 6 := by
  simp [frameBytes, frameBody]

end Sys2Proof
end

