-- ==== Sys2Proof/Laws/State.lean ====
section
/-! SUPPORT. What each update of the state does to each field: one lemma per field per update, true by rfl. -/

namespace Sys2Proof.Machine.State

@[simp] theorem respond_buf (s : State) (r : Response) : (s.respond r).buf = s.buf := rfl
@[simp] theorem respond_run (s : State) (r : Response) : (s.respond r).run = s.run := rfl
@[simp] theorem respond_active (s : State) (r : Response) : (s.respond r).active = s.active := rfl
@[simp] theorem respond_oneshot (s : State) (r : Response) : (s.respond r).oneshot = s.oneshot := rfl
@[simp] theorem respond_bigend (s : State) (r : Response) : (s.respond r).bigend = s.bigend := rfl
@[simp] theorem respond_map (s : State) (r : Response) : (s.respond r).map = s.map := rfl
@[simp] theorem respond_events (s : State) (r : Response) : (s.respond r).events = s.events := rfl
@[simp] theorem respond_responses (s : State) (r : Response) : (s.respond r).responses = s.responses ++ [r] := rfl
@[simp] theorem respond_variants (s : State) (r : Response) : (s.respond r).variants = s.variants := rfl
@[simp] theorem respond_commands (s : State) (r : Response) : (s.respond r).commands = s.commands := rfl
@[simp] theorem respond_received (s : State) (r : Response) : (s.respond r).received = s.received := rfl
@[simp] theorem respond_wire (s : State) (r : Response) : (s.respond r).wire = s.wire := rfl
@[simp] theorem respond_arrivals (s : State) (r : Response) : (s.respond r).arrivals = s.arrivals := rfl
@[simp] theorem respond_turns (s : State) (r : Response) : (s.respond r).turns = s.turns := rfl

@[simp] theorem finish_buf (s : State) (v : Value) : (s.finish v).buf = s.buf := rfl
@[simp] theorem finish_run (s : State) (v : Value) : (s.finish v).run = s.run := rfl
@[simp] theorem finish_active (s : State) (v : Value) : (s.finish v).active = s.active := rfl
@[simp] theorem finish_oneshot (s : State) (v : Value) : (s.finish v).oneshot = s.oneshot := rfl
@[simp] theorem finish_bigend (s : State) (v : Value) : (s.finish v).bigend = s.bigend := rfl
@[simp] theorem finish_map (s : State) (v : Value) : (s.finish v).map = s.map := rfl
@[simp] theorem finish_events (s : State) (v : Value) : (s.finish v).events = s.events := rfl
@[simp] theorem finish_responses (s : State) (v : Value) : (s.finish v).responses = s.responses ++ [⟨0x00, some v⟩] := rfl
@[simp] theorem finish_variants (s : State) (v : Value) : (s.finish v).variants = s.variants := rfl
@[simp] theorem finish_commands (s : State) (v : Value) : (s.finish v).commands = s.commands := rfl
@[simp] theorem finish_received (s : State) (v : Value) : (s.finish v).received = s.received := rfl
@[simp] theorem finish_wire (s : State) (v : Value) : (s.finish v).wire = s.wire := rfl
@[simp] theorem finish_arrivals (s : State) (v : Value) : (s.finish v).arrivals = s.arrivals := rfl
@[simp] theorem finish_turns (s : State) (v : Value) : (s.finish v).turns = s.turns := rfl

@[simp] theorem raise_buf (s : State) (e : Err) : (s.raise e).buf = s.buf := rfl
@[simp] theorem raise_run (s : State) (e : Err) : (s.raise e).run = s.run := rfl
@[simp] theorem raise_active (s : State) (e : Err) : (s.raise e).active = s.active := rfl
@[simp] theorem raise_oneshot (s : State) (e : Err) : (s.raise e).oneshot = s.oneshot := rfl
@[simp] theorem raise_bigend (s : State) (e : Err) : (s.raise e).bigend = s.bigend := rfl
@[simp] theorem raise_map (s : State) (e : Err) : (s.raise e).map = s.map := rfl
@[simp] theorem raise_events (s : State) (e : Err) : (s.raise e).events = s.events := rfl
@[simp] theorem raise_responses (s : State) (e : Err) : (s.raise e).responses = s.responses ++ [⟨e.code, none⟩] := rfl
@[simp] theorem raise_variants (s : State) (e : Err) : (s.raise e).variants = s.variants := rfl
@[simp] theorem raise_commands (s : State) (e : Err) : (s.raise e).commands = s.commands := rfl
@[simp] theorem raise_received (s : State) (e : Err) : (s.raise e).received = s.received := rfl
@[simp] theorem raise_wire (s : State) (e : Err) : (s.raise e).wire = s.wire := rfl
@[simp] theorem raise_arrivals (s : State) (e : Err) : (s.raise e).arrivals = s.arrivals := rfl
@[simp] theorem raise_turns (s : State) (e : Err) : (s.raise e).turns = s.turns := rfl

@[simp] theorem emit_buf (s : State) (e : Event) : (s.emit e).buf = s.buf := rfl
@[simp] theorem emit_run (s : State) (e : Event) : (s.emit e).run = s.run := rfl
@[simp] theorem emit_active (s : State) (e : Event) : (s.emit e).active = s.active := rfl
@[simp] theorem emit_oneshot (s : State) (e : Event) : (s.emit e).oneshot = s.oneshot := rfl
@[simp] theorem emit_bigend (s : State) (e : Event) : (s.emit e).bigend = s.bigend := rfl
@[simp] theorem emit_map (s : State) (e : Event) : (s.emit e).map = s.map := rfl
@[simp] theorem emit_events (s : State) (e : Event) : (s.emit e).events = s.events ++ [e] := rfl
@[simp] theorem emit_responses (s : State) (e : Event) : (s.emit e).responses = s.responses := rfl
@[simp] theorem emit_variants (s : State) (e : Event) : (s.emit e).variants = s.variants := rfl
@[simp] theorem emit_commands (s : State) (e : Event) : (s.emit e).commands = s.commands := rfl
@[simp] theorem emit_received (s : State) (e : Event) : (s.emit e).received = s.received := rfl
@[simp] theorem emit_wire (s : State) (e : Event) : (s.emit e).wire = s.wire := rfl
@[simp] theorem emit_arrivals (s : State) (e : Event) : (s.emit e).arrivals = s.arrivals := rfl
@[simp] theorem emit_turns (s : State) (e : Event) : (s.emit e).turns = s.turns := rfl

@[simp] theorem setBuf_buf (s : State) (bs : Bytes) : (s.setBuf bs).buf = bs := rfl
@[simp] theorem setBuf_run (s : State) (bs : Bytes) : (s.setBuf bs).run = s.run := rfl
@[simp] theorem setBuf_active (s : State) (bs : Bytes) : (s.setBuf bs).active = s.active := rfl
@[simp] theorem setBuf_oneshot (s : State) (bs : Bytes) : (s.setBuf bs).oneshot = s.oneshot := rfl
@[simp] theorem setBuf_bigend (s : State) (bs : Bytes) : (s.setBuf bs).bigend = s.bigend := rfl
@[simp] theorem setBuf_map (s : State) (bs : Bytes) : (s.setBuf bs).map = s.map := rfl
@[simp] theorem setBuf_events (s : State) (bs : Bytes) : (s.setBuf bs).events = s.events := rfl
@[simp] theorem setBuf_responses (s : State) (bs : Bytes) : (s.setBuf bs).responses = s.responses := rfl
@[simp] theorem setBuf_variants (s : State) (bs : Bytes) : (s.setBuf bs).variants = s.variants := rfl
@[simp] theorem setBuf_commands (s : State) (bs : Bytes) : (s.setBuf bs).commands = s.commands := rfl
@[simp] theorem setBuf_received (s : State) (bs : Bytes) : (s.setBuf bs).received = s.received := rfl
@[simp] theorem setBuf_wire (s : State) (bs : Bytes) : (s.setBuf bs).wire = s.wire := rfl
@[simp] theorem setBuf_arrivals (s : State) (bs : Bytes) : (s.setBuf bs).arrivals = s.arrivals := rfl
@[simp] theorem setBuf_turns (s : State) (bs : Bytes) : (s.setBuf bs).turns = s.turns := rfl

@[simp] theorem setActive_buf (s : State) (v : Bool) : (s.setActive v).buf = s.buf := rfl
@[simp] theorem setActive_run (s : State) (v : Bool) : (s.setActive v).run = s.run := rfl
@[simp] theorem setActive_active (s : State) (v : Bool) : (s.setActive v).active = v := rfl
@[simp] theorem setActive_oneshot (s : State) (v : Bool) : (s.setActive v).oneshot = s.oneshot := rfl
@[simp] theorem setActive_bigend (s : State) (v : Bool) : (s.setActive v).bigend = s.bigend := rfl
@[simp] theorem setActive_map (s : State) (v : Bool) : (s.setActive v).map = s.map := rfl
@[simp] theorem setActive_events (s : State) (v : Bool) : (s.setActive v).events = s.events := rfl
@[simp] theorem setActive_responses (s : State) (v : Bool) : (s.setActive v).responses = s.responses := rfl
@[simp] theorem setActive_variants (s : State) (v : Bool) : (s.setActive v).variants = s.variants := rfl
@[simp] theorem setActive_commands (s : State) (v : Bool) : (s.setActive v).commands = s.commands := rfl
@[simp] theorem setActive_received (s : State) (v : Bool) : (s.setActive v).received = s.received := rfl
@[simp] theorem setActive_wire (s : State) (v : Bool) : (s.setActive v).wire = s.wire := rfl
@[simp] theorem setActive_arrivals (s : State) (v : Bool) : (s.setActive v).arrivals = s.arrivals := rfl
@[simp] theorem setActive_turns (s : State) (v : Bool) : (s.setActive v).turns = s.turns := rfl

@[simp] theorem setOneshot_buf (s : State) (v : Bool) : (s.setOneshot v).buf = s.buf := rfl
@[simp] theorem setOneshot_run (s : State) (v : Bool) : (s.setOneshot v).run = s.run := rfl
@[simp] theorem setOneshot_active (s : State) (v : Bool) : (s.setOneshot v).active = s.active := rfl
@[simp] theorem setOneshot_oneshot (s : State) (v : Bool) : (s.setOneshot v).oneshot = v := rfl
@[simp] theorem setOneshot_bigend (s : State) (v : Bool) : (s.setOneshot v).bigend = s.bigend := rfl
@[simp] theorem setOneshot_map (s : State) (v : Bool) : (s.setOneshot v).map = s.map := rfl
@[simp] theorem setOneshot_events (s : State) (v : Bool) : (s.setOneshot v).events = s.events := rfl
@[simp] theorem setOneshot_responses (s : State) (v : Bool) : (s.setOneshot v).responses = s.responses := rfl
@[simp] theorem setOneshot_variants (s : State) (v : Bool) : (s.setOneshot v).variants = s.variants := rfl
@[simp] theorem setOneshot_commands (s : State) (v : Bool) : (s.setOneshot v).commands = s.commands := rfl
@[simp] theorem setOneshot_received (s : State) (v : Bool) : (s.setOneshot v).received = s.received := rfl
@[simp] theorem setOneshot_wire (s : State) (v : Bool) : (s.setOneshot v).wire = s.wire := rfl
@[simp] theorem setOneshot_arrivals (s : State) (v : Bool) : (s.setOneshot v).arrivals = s.arrivals := rfl
@[simp] theorem setOneshot_turns (s : State) (v : Bool) : (s.setOneshot v).turns = s.turns := rfl

@[simp] theorem setCtrl_buf (s : State) (r b : Bool) : (s.setCtrl r b).buf = s.buf := rfl
@[simp] theorem setCtrl_run (s : State) (r b : Bool) : (s.setCtrl r b).run = r := rfl
@[simp] theorem setCtrl_active (s : State) (r b : Bool) : (s.setCtrl r b).active = s.active := rfl
@[simp] theorem setCtrl_oneshot (s : State) (r b : Bool) : (s.setCtrl r b).oneshot = s.oneshot := rfl
@[simp] theorem setCtrl_bigend (s : State) (r b : Bool) : (s.setCtrl r b).bigend = b := rfl
@[simp] theorem setCtrl_map (s : State) (r b : Bool) : (s.setCtrl r b).map = s.map := rfl
@[simp] theorem setCtrl_events (s : State) (r b : Bool) : (s.setCtrl r b).events = s.events := rfl
@[simp] theorem setCtrl_responses (s : State) (r b : Bool) : (s.setCtrl r b).responses = s.responses := rfl
@[simp] theorem setCtrl_variants (s : State) (r b : Bool) : (s.setCtrl r b).variants = s.variants := rfl
@[simp] theorem setCtrl_commands (s : State) (r b : Bool) : (s.setCtrl r b).commands = s.commands := rfl
@[simp] theorem setCtrl_received (s : State) (r b : Bool) : (s.setCtrl r b).received = s.received := rfl
@[simp] theorem setCtrl_wire (s : State) (r b : Bool) : (s.setCtrl r b).wire = s.wire := rfl
@[simp] theorem setCtrl_arrivals (s : State) (r b : Bool) : (s.setCtrl r b).arrivals = s.arrivals := rfl
@[simp] theorem setCtrl_turns (s : State) (r b : Bool) : (s.setCtrl r b).turns = s.turns := rfl

@[simp] theorem setMap_buf (s : State) (m : MemoryMap) : (s.setMap m).buf = s.buf := rfl
@[simp] theorem setMap_run (s : State) (m : MemoryMap) : (s.setMap m).run = s.run := rfl
@[simp] theorem setMap_active (s : State) (m : MemoryMap) : (s.setMap m).active = s.active := rfl
@[simp] theorem setMap_oneshot (s : State) (m : MemoryMap) : (s.setMap m).oneshot = s.oneshot := rfl
@[simp] theorem setMap_bigend (s : State) (m : MemoryMap) : (s.setMap m).bigend = s.bigend := rfl
@[simp] theorem setMap_map (s : State) (m : MemoryMap) : (s.setMap m).map = some m := rfl
@[simp] theorem setMap_events (s : State) (m : MemoryMap) : (s.setMap m).events = s.events := rfl
@[simp] theorem setMap_responses (s : State) (m : MemoryMap) : (s.setMap m).responses = s.responses := rfl
@[simp] theorem setMap_variants (s : State) (m : MemoryMap) : (s.setMap m).variants = s.variants := rfl
@[simp] theorem setMap_commands (s : State) (m : MemoryMap) : (s.setMap m).commands = s.commands := rfl
@[simp] theorem setMap_received (s : State) (m : MemoryMap) : (s.setMap m).received = s.received := rfl
@[simp] theorem setMap_wire (s : State) (m : MemoryMap) : (s.setMap m).wire = s.wire := rfl
@[simp] theorem setMap_arrivals (s : State) (m : MemoryMap) : (s.setMap m).arrivals = s.arrivals := rfl
@[simp] theorem setMap_turns (s : State) (m : MemoryMap) : (s.setMap m).turns = s.turns := rfl

@[simp] theorem untake_buf (s : State) (w : BitVec 9) : (s.untake w).buf = s.buf := rfl
@[simp] theorem untake_run (s : State) (w : BitVec 9) : (s.untake w).run = s.run := rfl
@[simp] theorem untake_active (s : State) (w : BitVec 9) : (s.untake w).active = s.active := rfl
@[simp] theorem untake_oneshot (s : State) (w : BitVec 9) : (s.untake w).oneshot = s.oneshot := rfl
@[simp] theorem untake_bigend (s : State) (w : BitVec 9) : (s.untake w).bigend = s.bigend := rfl
@[simp] theorem untake_map (s : State) (w : BitVec 9) : (s.untake w).map = s.map := rfl
@[simp] theorem untake_events (s : State) (w : BitVec 9) : (s.untake w).events = s.events := rfl
@[simp] theorem untake_responses (s : State) (w : BitVec 9) : (s.untake w).responses = s.responses := rfl
@[simp] theorem untake_variants (s : State) (w : BitVec 9) : (s.untake w).variants = s.variants := rfl
@[simp] theorem untake_commands (s : State) (w : BitVec 9) : (s.untake w).commands = s.commands := rfl
@[simp] theorem untake_received (s : State) (w : BitVec 9) : (s.untake w).received = w :: s.received := rfl
@[simp] theorem untake_wire (s : State) (w : BitVec 9) : (s.untake w).wire = s.wire := rfl
@[simp] theorem untake_arrivals (s : State) (w : BitVec 9) : (s.untake w).arrivals = s.arrivals := rfl
@[simp] theorem untake_turns (s : State) (w : BitVec 9) : (s.untake w).turns = s.turns := rfl

@[simp] theorem arrive_buf (s : State) (b : Byte) : (s.arrive b).buf = s.buf := rfl
@[simp] theorem arrive_run (s : State) (b : Byte) : (s.arrive b).run = s.run := rfl
@[simp] theorem arrive_active (s : State) (b : Byte) : (s.arrive b).active = s.active := rfl
@[simp] theorem arrive_oneshot (s : State) (b : Byte) : (s.arrive b).oneshot = s.oneshot := rfl
@[simp] theorem arrive_bigend (s : State) (b : Byte) : (s.arrive b).bigend = s.bigend := rfl
@[simp] theorem arrive_map (s : State) (b : Byte) : (s.arrive b).map = s.map := rfl
@[simp] theorem arrive_events (s : State) (b : Byte) : (s.arrive b).events = s.events := rfl
@[simp] theorem arrive_responses (s : State) (b : Byte) : (s.arrive b).responses = s.responses := rfl
@[simp] theorem arrive_variants (s : State) (b : Byte) : (s.arrive b).variants = s.variants := rfl
@[simp] theorem arrive_commands (s : State) (b : Byte) : (s.arrive b).commands = s.commands := rfl
@[simp] theorem arrive_received (s : State) (b : Byte) : (s.arrive b).received = if s.active || Config.rxBacklog s.arrivals then s.received ++ [byteWord b] else s.received := rfl
@[simp] theorem arrive_wire (s : State) (b : Byte) : (s.arrive b).wire = s.wire := rfl
@[simp] theorem arrive_arrivals (s : State) (b : Byte) : (s.arrive b).arrivals = s.arrivals + 1 := rfl
@[simp] theorem arrive_turns (s : State) (b : Byte) : (s.arrive b).turns = s.turns := rfl

@[simp] theorem resetBlock_buf (s : State) : s.resetBlock.buf = [] := rfl
@[simp] theorem resetBlock_run (s : State) : s.resetBlock.run = false := rfl
@[simp] theorem resetBlock_active (s : State) : s.resetBlock.active = false := rfl
@[simp] theorem resetBlock_oneshot (s : State) : s.resetBlock.oneshot = false := rfl
@[simp] theorem resetBlock_bigend (s : State) : s.resetBlock.bigend = false := rfl
@[simp] theorem resetBlock_map (s : State) : s.resetBlock.map = none := rfl
@[simp] theorem resetBlock_events (s : State) : s.resetBlock.events = [] := rfl
@[simp] theorem resetBlock_responses (s : State) : s.resetBlock.responses = [] := rfl
@[simp] theorem resetBlock_variants (s : State) : s.resetBlock.variants = s.variants := rfl
@[simp] theorem resetBlock_commands (s : State) : s.resetBlock.commands = s.commands := rfl
@[simp] theorem resetBlock_received (s : State) : s.resetBlock.received = s.received := rfl
@[simp] theorem resetBlock_wire (s : State) : s.resetBlock.wire = s.wire := rfl
@[simp] theorem resetBlock_arrivals (s : State) : s.resetBlock.arrivals = s.arrivals := rfl
@[simp] theorem resetBlock_turns (s : State) : s.resetBlock.turns = s.turns := rfl

@[simp] theorem answer_buf (s : State) (r : Except Err Value) : (s.answer r).buf = s.buf := by
  cases r <;> rfl
@[simp] theorem answer_run (s : State) (r : Except Err Value) : (s.answer r).run = s.run := by
  cases r <;> rfl
@[simp] theorem answer_active (s : State) (r : Except Err Value) : (s.answer r).active = s.active := by
  cases r <;> rfl
@[simp] theorem answer_oneshot (s : State) (r : Except Err Value) : (s.answer r).oneshot = s.oneshot := by
  cases r <;> rfl
@[simp] theorem answer_bigend (s : State) (r : Except Err Value) : (s.answer r).bigend = s.bigend := by
  cases r <;> rfl
@[simp] theorem answer_map (s : State) (r : Except Err Value) : (s.answer r).map = s.map := by
  cases r <;> rfl
@[simp] theorem answer_events (s : State) (r : Except Err Value) : (s.answer r).events = s.events := by
  cases r <;> rfl
@[simp] theorem answer_variants (s : State) (r : Except Err Value) : (s.answer r).variants = s.variants := by
  cases r <;> rfl
@[simp] theorem answer_commands (s : State) (r : Except Err Value) : (s.answer r).commands = s.commands := by
  cases r <;> rfl
@[simp] theorem answer_received (s : State) (r : Except Err Value) : (s.answer r).received = s.received := by
  cases r <;> rfl
@[simp] theorem answer_wire (s : State) (r : Except Err Value) : (s.answer r).wire = s.wire := by
  cases r <;> rfl
@[simp] theorem answer_arrivals (s : State) (r : Except Err Value) : (s.answer r).arrivals = s.arrivals := by
  cases r <;> rfl
@[simp] theorem answer_turns (s : State) (r : Except Err Value) : (s.answer r).turns = s.turns := by
  cases r <;> rfl

@[simp] theorem emitSome_buf (s : State) (e : Option Event) : (s.emitSome e).buf = s.buf := by
  cases e <;> rfl
@[simp] theorem emitSome_run (s : State) (e : Option Event) : (s.emitSome e).run = s.run := by
  cases e <;> rfl
@[simp] theorem emitSome_active (s : State) (e : Option Event) : (s.emitSome e).active = s.active := by
  cases e <;> rfl
@[simp] theorem emitSome_oneshot (s : State) (e : Option Event) : (s.emitSome e).oneshot = s.oneshot := by
  cases e <;> rfl
@[simp] theorem emitSome_bigend (s : State) (e : Option Event) : (s.emitSome e).bigend = s.bigend := by
  cases e <;> rfl
@[simp] theorem emitSome_map (s : State) (e : Option Event) : (s.emitSome e).map = s.map := by
  cases e <;> rfl
@[simp] theorem emitSome_responses (s : State) (e : Option Event) : (s.emitSome e).responses = s.responses := by
  cases e <;> rfl
@[simp] theorem emitSome_variants (s : State) (e : Option Event) : (s.emitSome e).variants = s.variants := by
  cases e <;> rfl
@[simp] theorem emitSome_commands (s : State) (e : Option Event) : (s.emitSome e).commands = s.commands := by
  cases e <;> rfl
@[simp] theorem emitSome_received (s : State) (e : Option Event) : (s.emitSome e).received = s.received := by
  cases e <;> rfl
@[simp] theorem emitSome_wire (s : State) (e : Option Event) : (s.emitSome e).wire = s.wire := by
  cases e <;> rfl
@[simp] theorem emitSome_arrivals (s : State) (e : Option Event) : (s.emitSome e).arrivals = s.arrivals := by
  cases e <;> rfl
@[simp] theorem emitSome_turns (s : State) (e : Option Event) : (s.emitSome e).turns = s.turns := by
  cases e <;> rfl
@[simp] theorem emitSome_events (s : State) (e : Option Event) : (s.emitSome e).events = s.events ++ e.toList := by
  cases e <;> simp [emitSome]

@[simp] theorem deliver_buf (s : State) (bs : Bytes) : (s.deliver bs).buf = s.buf := by
  induction bs generalizing s with
  | nil => rfl
  | cons b bs ih => exact ih (s.arrive b)
@[simp] theorem deliver_run (s : State) (bs : Bytes) : (s.deliver bs).run = s.run := by
  induction bs generalizing s with
  | nil => rfl
  | cons b bs ih => exact ih (s.arrive b)
@[simp] theorem deliver_active (s : State) (bs : Bytes) : (s.deliver bs).active = s.active := by
  induction bs generalizing s with
  | nil => rfl
  | cons b bs ih => exact ih (s.arrive b)
@[simp] theorem deliver_oneshot (s : State) (bs : Bytes) : (s.deliver bs).oneshot = s.oneshot := by
  induction bs generalizing s with
  | nil => rfl
  | cons b bs ih => exact ih (s.arrive b)
@[simp] theorem deliver_bigend (s : State) (bs : Bytes) : (s.deliver bs).bigend = s.bigend := by
  induction bs generalizing s with
  | nil => rfl
  | cons b bs ih => exact ih (s.arrive b)
@[simp] theorem deliver_map (s : State) (bs : Bytes) : (s.deliver bs).map = s.map := by
  induction bs generalizing s with
  | nil => rfl
  | cons b bs ih => exact ih (s.arrive b)
@[simp] theorem deliver_events (s : State) (bs : Bytes) : (s.deliver bs).events = s.events := by
  induction bs generalizing s with
  | nil => rfl
  | cons b bs ih => exact ih (s.arrive b)
@[simp] theorem deliver_responses (s : State) (bs : Bytes) : (s.deliver bs).responses = s.responses := by
  induction bs generalizing s with
  | nil => rfl
  | cons b bs ih => exact ih (s.arrive b)
@[simp] theorem deliver_variants (s : State) (bs : Bytes) : (s.deliver bs).variants = s.variants := by
  induction bs generalizing s with
  | nil => rfl
  | cons b bs ih => exact ih (s.arrive b)
@[simp] theorem deliver_commands (s : State) (bs : Bytes) : (s.deliver bs).commands = s.commands := by
  induction bs generalizing s with
  | nil => rfl
  | cons b bs ih => exact ih (s.arrive b)
@[simp] theorem deliver_wire (s : State) (bs : Bytes) : (s.deliver bs).wire = s.wire := by
  induction bs generalizing s with
  | nil => rfl
  | cons b bs ih => exact ih (s.arrive b)
@[simp] theorem deliver_turns (s : State) (bs : Bytes) : (s.deliver bs).turns = s.turns := by
  induction bs generalizing s with
  | nil => rfl
  | cons b bs ih => exact ih (s.arrive b)

end Sys2Proof.Machine.State
end

