-- ==== Sys2Proof/Laws/Ops.lean ====
section
/-! SUPPORT. For each shared operation, once, everything it can do. -/

namespace Sys2Proof.Machine

theorem code_ne_ok (e : Err) : e.code ≠ 0x00 := by cases e <;> decide

@[simp] theorem answer_ok (s : State) (v : Value) : s.answer (.ok v) = s.finish v := rfl

@[simp] theorem answer_error (s : State) (e : Err) : s.answer (.error e) = s.raise e := rfl

/-- `answer` appends one response: a value with status 0, or an error's code and no value. -/
theorem answer_cases (s : State) (r : Except Err Value) :
    (∃ v, r = .ok v ∧ s.answer r = s.respond ⟨0x00, some v⟩) ∨
    (∃ e, r = .error e ∧ s.answer r = s.respond ⟨e.code, none⟩) := by
  cases r with
  | ok v => exact .inl ⟨v, rfl, rfl⟩
  | error e => exact .inr ⟨e, rfl, rfl⟩

@[simp] theorem deliver_nil (s : State) : s.deliver [] = s := rfl

theorem deliver_cons (s : State) (b : Byte) (bs : Bytes) : s.deliver (b :: bs) = (s.arrive b).deliver bs := rfl

@[simp] theorem deliver_arrivals (s : State) (bs : Bytes) : (s.deliver bs).arrivals = s.arrivals + bs.length := by
  induction bs generalizing s with
  | nil => rfl
  | cons b bs ih => simp [deliver_cons, ih]; omega

/-- What `deliver` leaves with the transport: each byte that a cycle or `RX_BACKLOG` keeps, behind what was there, in order. -/
theorem deliver_received (s : State) (bs : Bytes) : (s.deliver bs).received = s.received ++
    ((bs.zipIdx s.arrivals).filter fun p => s.active || Config.rxBacklog p.2).map fun p => byteWord p.1 := by
  induction bs generalizing s with
  | nil => simp
  | cons b bs ih =>
    rw [deliver_cons, ih]
    by_cases h : (s.active || Config.rxBacklog s.arrivals) = true
    · simp [List.zipIdx_cons, h]
    · simp [List.zipIdx_cons, h]

/-- `fetch` takes the item of the agent whose turn it is, and changes nothing but that agent's queue and the schedule. -/
theorem fetch_cases {s t : State} {e : Encoded} (h : fetch s = some (e, t)) :
    (∃ ts c cs, s.turns = .command :: ts ∧ s.commands = c :: cs ∧ e = .command c ∧
      t = { s with turns := ts, commands := cs }) ∨
    (∃ ts w ws, s.turns = .receive :: ts ∧ s.received = w :: ws ∧ e = .rx w ∧
      t = { s with turns := ts, received := ws }) ∨
    (∃ ts, s.turns = .cycleStart :: ts ∧ e = .internal ∧ t = { s with turns := ts }) ∨
    (∃ ts x xs, s.turns = .wire :: ts ∧ s.wire = x :: xs ∧ e = .wire x ∧ t = { s with turns := ts, wire := xs }) := by
  unfold fetch at h
  split at h
  · rename_i ts hts
    split at h
    · rename_i c cs hcs
      cases h
      exact .inl ⟨ts, c, cs, hts, hcs, rfl, rfl⟩
    · cases h
  · rename_i ts hts
    split at h
    · rename_i w ws hws
      cases h
      exact .inr (.inl ⟨ts, w, ws, hts, hws, rfl, rfl⟩)
    · cases h
  · rename_i ts hts
    cases h
    exact .inr (.inr (.inl ⟨ts, hts, rfl, rfl⟩))
  · rename_i ts hts
    split at h
    · rename_i x xs hxs
      cases h
      exact .inr (.inr (.inr ⟨ts, x, xs, hts, hxs, rfl, rfl⟩))
    · cases h
  · cases h
  · cases h

/-- A command's item decodes: only the wire has items its decoder rejects. -/
theorem decode_error {e : Encoded} {r : DecodeError} (h : decode e = .error r) : ∃ bs, e = .wire bs := by
  cases e with
  | wire bs => exact ⟨bs, rfl⟩
  | command c => cases h
  | rx w => cases h
  | internal => cases h

/-- `normalise` cuts off the front of the buffer, counts what it cut, and stops at a buffer no rule applies to. -/
theorem normalise_spec (buf : Bytes) : ∃ dropped, buf = dropped ++ (normalise buf).1 ∧
    dropped.length = (normalise buf).2 ∧ resyncs (normalise buf).1 = false := by
  induction buf with
  | nil => exact ⟨[], rfl, rfl, rfl⟩
  | cons b rest ih =>
    by_cases h : resyncs (b :: rest) = true
    · obtain ⟨dropped, h1, h2, h3⟩ := ih
      refine ⟨b :: dropped, ?_, ?_, ?_⟩
      · rw [normalise, if_pos h]; simp [← h1]
      · rw [normalise, if_pos h]; simp [h2]
      · rw [normalise, if_pos h]; exact h3
    · have h : resyncs (b :: rest) = false := by simpa using h
      exact ⟨[], by rw [normalise, if_neg (by simp [h])]; rfl, by rw [normalise, if_neg (by simp [h])]; rfl,
        by rw [normalise, if_neg (by simp [h])]; exact h⟩

theorem normalise_of_not_resyncs {buf : Bytes} (h : resyncs buf = false) : normalise buf = (buf, 0) := by
  cases buf with
  | nil => rfl
  | cons b rest => rw [normalise, if_neg (by simp [h])]

/-- A consumed byte completes a frame and ends the cycle, or leaves the normalised buffer. -/
theorem take_byte_cases {buf : Bytes} {b : Byte} {t : Taken} (h : take buf (.byte b) = some t) :
    (∃ f, complete (normalise (buf ++ [b])).1 = true ∧ pktDecode (normalise (buf ++ [b])).1 = .ok f ∧
      t = { buf := [], event := some (.frameOut (normalise (buf ++ [b])).1 f), ends := true }) ∨
    (complete (normalise (buf ++ [b])).1 = false ∧
      t = { buf := (normalise (buf ++ [b])).1,
            event := if (normalise (buf ++ [b])).2 = 0 then none
              else some (.diag .framingError (normalise (buf ++ [b])).2),
            ends := false }) := by
  simp only [take] at h
  split at h
  · rename_i hc
    split at h
    · rename_i f hf
      cases h
      exact .inl ⟨f, hc, hf, rfl⟩
    · cases h
  · rename_i hc
    cases h
    exact .inr ⟨by simpa using hc, rfl⟩

@[simp] theorem take_timeout (buf : Bytes) :
    take buf .timeout = some { buf := [], event := some (.timeoutOut buf.length), ends := true } := rfl

/-- `consume` writes `BUF` and `ACTIVE` and appends at most one event. -/
theorem consume_next {e : RxEvent} {s s' : State} (h : consume e s = .next s') : ∃ t, take s.buf e = some t ∧
    s' = ((s.setBuf t.buf).setActive (!t.ends)).emitSome t.event := by
  unfold consume at h
  split at h
  · cases h
  · rename_i t ht
    cases h
    exact ⟨t, ht, rfl⟩

end Sys2Proof.Machine
end

