-- ==== Sys2Proof/Laws/Exec.lean ====
section
/-! SUPPORT. What one instruction, and one step, can do: the inversion lemmas the invariants are derived from. -/

namespace Sys2Proof.Machine

theorem next_inj {s t : State} (h : (Host.Outcome.next s : Host.Outcome State Fault Refusal) = .next t) : t = s := by
  cases h; rfl

/-- What an instruction that answers a next state has done: a response and no other write, `MAP_BUILD`'s map, `RX_ONE`'s flag,
`CSR_WRITE`'s two flags, a receive event taken or left with the transport, the start of a cycle, bytes arriving from the wire. -/
theorem exec_cases {i : Instr} {s s' : State} (h : exec i s = .next s') :
    (∃ r, s' = s.answer r) ∨
    (∃ n m, i = .mapBuild n ∧ buildMap s.variants n = .ok m ∧ s' = (s.setMap m).finish .unit) ∨
    (i = .rxOne ∧ s' = (s.setOneshot true).finish .unit) ∨
    (∃ v, i = .csrWrite 0 v ∧ s' = (s.setCtrl (v.getLsbD 0) (v.getLsbD 1)).finish .unit) ∨
    (∃ b, i = .rxByte b ∧ s.active = true ∧ consume (.byte b) s = .next s') ∨
    (∃ x, i = .rxTimeout x ∧ s.active = true ∧ consume .timeout s = .next s') ∨
    (∃ w, s.active = false ∧ s' = s.untake w ∧ ((∃ b, i = .rxByte b) ∨ ∃ x, i = .rxTimeout x)) ∨
    (i = .cycleStart ∧ s.active = false ∧ s' = (s.setOneshot false).setActive true) ∨
    (i = .cycleStart ∧ s' = s) ∨
    (∃ bs, s' = s.deliver bs ∧ ((∃ d o p, i = .frame d o p) ∨ i = .ping)) := by
  cases i with
  | mapBuild n =>
    have h := next_inj h
    split at h
    · rename_i m hm
      exact .inr (.inl ⟨n, m, rfl, hm, h⟩)
    · rename_i e he
      exact .inl ⟨.error e, h⟩
  | rxOne => exact .inr (.inr (.inl ⟨rfl, next_inj h⟩))
  | csrWrite n v =>
    have h := next_inj h
    split at h
    · rename_i hn
      exact .inr (.inr (.inr (.inl ⟨v, by rw [hn], h⟩)))
    · exact .inl ⟨.error .illegalCommand, h⟩
  | rxByte b =>
    simp only [exec, execRxByte] at h
    split at h
    · rename_i ha
      exact .inr (.inr (.inr (.inr (.inl ⟨b, rfl, ha, h⟩))))
    · rename_i ha
      exact .inr (.inr (.inr (.inr (.inr (.inr (.inl ⟨_, by simpa using ha, next_inj h, .inl ⟨b, rfl⟩⟩))))))
  | rxTimeout x =>
    simp only [exec, execRxTimeout] at h
    split at h
    · rename_i ha
      exact .inr (.inr (.inr (.inr (.inr (.inl ⟨x, rfl, ha, h⟩)))))
    · rename_i ha
      exact .inr (.inr (.inr (.inr (.inr (.inr (.inl ⟨_, by simpa using ha, next_inj h, .inr ⟨x, rfl⟩⟩))))))
  | cycleStart =>
    have h := next_inj h
    split at h
    · rename_i hc
      refine .inr (.inr (.inr (.inr (.inr (.inr (.inr (.inl ⟨rfl, ?_, h⟩)))))))
      simp only [Bool.and_eq_true, Bool.not_eq_true'] at hc
      exact hc.1
    · exact .inr (.inr (.inr (.inr (.inr (.inr (.inr (.inr (.inl ⟨rfl, h⟩))))))))
  | frame d o p =>
    exact .inr (.inr (.inr (.inr (.inr (.inr (.inr (.inr (.inr ⟨_, next_inj h, .inl ⟨d, o, p, rfl⟩⟩))))))))
  | ping => exact .inr (.inr (.inr (.inr (.inr (.inr (.inr (.inr (.inr ⟨_, next_inj h, .inr rfl⟩))))))))
  | fldWidth ty => exact .inl ⟨.ok _, next_inj h⟩
  | pktChecksum bs => exact .inl ⟨.ok _, next_inj h⟩
  | illegalCommand hd => exact .inl ⟨.error .illegalCommand, next_inj h⟩
  | fldDecodeTy10 _ | fldDecodeTy11 _ | fldDecodeTy12 _ | fldDecodeTy13 _ | fldDecodeTy14 _ | fldDecodeTy15 _
  | fldEncodeTy10 _ | fldEncodeTy11 _ | fldEncodeTy12 _ | fldEncodeTy13 _ | fldEncodeTy14 _ | fldEncodeTy15 _ =>
    exact .inl ⟨.error .unknownType, next_inj h⟩
  | _ => exact .inl ⟨_, next_inj h⟩

/-- What a step that answers a next state has done. -/
theorem step_cases {s s' : State} (h : step s = .next s') :
    (fetch s = none ∧ s' = s.idle) ∨
    (∃ e t i, fetch s = some (e, t) ∧ decode e = .ok i ∧ exec i t = .next s') ∨
    (∃ bs t r, fetch s = some (.wire bs, t) ∧ decode (.wire bs) = .error r ∧ s' = t.deliver bs) := by
  unfold step at h
  split at h
  · rename_i hf
    exact .inl ⟨hf, next_inj h⟩
  · rename_i e t hf
    split at h
    · rename_i i hi
      exact .inr (.inl ⟨e, t, i, hf, hi, h⟩)
    · rename_i r hr
      obtain ⟨bs, rfl⟩ := decode_error hr
      exact .inr (.inr ⟨bs, t, r, hf, hr, next_inj h⟩)

end Sys2Proof.Machine
end

