-- ==== Sys2Proof/Laws/PerInstr.lean ====
section
/-! SUPPORT. The family TableRow: the encoding of every well-formed instruction is one its row of spec/opcode_table.json
matches. The rows' `mask` and `match` stand here as the table writes them. -/

namespace Sys2Proof.Laws

/-- What a row of the table fixes. -/
inductive RowShape where
  | cmd (mask value : Word)
  | otherCmd
  | rx (mask value : BitVec 9)
  | internal
  | wireFrame
  | wireByte (mask value : Byte)
  deriving DecidableEq, Repr

/-- Whether a port item is one of the row's. -/
def RowShape.admits : RowShape → Encoded → Bool
  | .cmd mask value, .command c => c.header &&& mask == value
  | .otherCmd, .command c => !headerLegal c.header
  | .rx mask value, .rx w => w &&& mask == value
  | .internal, .internal => true
  | .wireFrame, .wire (h0 :: h1 :: deviceId :: len :: rest) =>
    h0 == 0xFF && h1 == 0xFF && deviceId != 0xFF && decide (2 ≤ len.toNat) && rest.length == len.toNat
  | .wireByte mask value, .wire [b] => b &&& mask == value
  | _, _ => false

/-- The table's row of each instruction. -/
def rowOf : Instr → RowShape
  | .fldWidth _ => .cmd 0xFFF0 0x1000
  | .fldDecodeU8 _ => .cmd 0xFFFF 0x1100
  | .fldDecodeI8 _ => .cmd 0xFFFF 0x1101
  | .fldDecodeU16 _ => .cmd 0xFFFF 0x1102
  | .fldDecodeI16 _ => .cmd 0xFFFF 0x1103
  | .fldDecodeU32 _ => .cmd 0xFFFF 0x1104
  | .fldDecodeI32 _ => .cmd 0xFFFF 0x1105
  | .fldDecodeF32 _ => .cmd 0xFFFF 0x1106
  | .fldDecodeF64 _ => .cmd 0xFFFF 0x1107
  | .fldDecodeFxp32 _ => .cmd 0xFFFF 0x1108
  | .fldDecodeFxp16 _ => .cmd 0xFFFF 0x1109
  | .fldDecodeTy10 _ => .cmd 0xFFFF 0x110A
  | .fldDecodeTy11 _ => .cmd 0xFFFF 0x110B
  | .fldDecodeTy12 _ => .cmd 0xFFFF 0x110C
  | .fldDecodeTy13 _ => .cmd 0xFFFF 0x110D
  | .fldDecodeTy14 _ => .cmd 0xFFFF 0x110E
  | .fldDecodeTy15 _ => .cmd 0xFFFF 0x110F
  | .fldEncodeU8 _ => .cmd 0xFFFF 0x1200
  | .fldEncodeI8 _ => .cmd 0xFFFF 0x1201
  | .fldEncodeU16 _ => .cmd 0xFFFF 0x1202
  | .fldEncodeI16 _ => .cmd 0xFFFF 0x1203
  | .fldEncodeU32 _ => .cmd 0xFFFF 0x1204
  | .fldEncodeI32 _ => .cmd 0xFFFF 0x1205
  | .fldEncodeF32 _ => .cmd 0xFFFF 0x1206
  | .fldEncodeF64 _ => .cmd 0xFFFF 0x1207
  | .fldEncodeFxp32 _ => .cmd 0xFFFF 0x1208
  | .fldEncodeFxp16 _ => .cmd 0xFFFF 0x1209
  | .fldEncodeTy10 _ => .cmd 0xFFFF 0x120A
  | .fldEncodeTy11 _ => .cmd 0xFFFF 0x120B
  | .fldEncodeTy12 _ => .cmd 0xFFFF 0x120C
  | .fldEncodeTy13 _ => .cmd 0xFFFF 0x120D
  | .fldEncodeTy14 _ => .cmd 0xFFFF 0x120E
  | .fldEncodeTy15 _ => .cmd 0xFFFF 0x120F
  | .mapBuild _ => .cmd 0xFFFF 0x2000
  | .mapFieldAt _ => .cmd 0xFFFF 0x2100
  | .mapFieldNamed _ => .cmd 0xFFFF 0x2200
  | .mapAllNames => .cmd 0xFFFF 0x2300
  | .instrLookup _ => .cmd 0xFFFF 0x2400
  | .instrName _ => .cmd 0xFFFF 0x2500
  | .pktChecksum _ => .cmd 0xFFFF 0x3000
  | .pktEncode _ _ _ => .cmd 0xFFFF 0x3100
  | .pktDecode _ => .cmd 0xFFFF 0x3200
  | .rxOne => .cmd 0xFFFF 0x4000
  | .csrRead _ => .cmd 0xFF00 0x4100
  | .csrWrite _ _ => .cmd 0xFF00 0x4200
  | .illegalCommand _ => .otherCmd
  | .rxByte _ => .rx 0x100 0x000
  | .rxTimeout _ => .rx 0x100 0x100
  | .cycleStart => .internal
  | .frame _ _ _ => .wireFrame
  | .ping => .wireByte 0xFF 0x01

/-- The encoding of a well-formed instruction is one its row matches. -/
def TableRow.Statement (i : Instr) : Prop := i.wellFormed = true → (rowOf i).admits (encode i) = true

/-- A header built from its two fields is itself under the full mask. -/
theorem header_on_row (op arg : Byte) (value : Word) (h : header op arg = value) :
    (header op arg &&& 0xFFFF == value) = true := by
  subst h
  rw [show (0xFFFF : Word) = BitVec.allOnes 16 from rfl, BitVec.and_allOnes]
  exact beq_self_eq_true _

theorem csr_header_on_row : (∀ n : Byte, (header 0x41 n &&& 0xFF00 == 0x4100) = true) ∧
    ∀ n : Byte, (header 0x42 n &&& 0xFF00 == 0x4200) = true := by
  decide +kernel

theorem TableRow.fldWidth (ty : BitVec 4) : TableRow.Statement (.fldWidth ty) := by
  intro _; revert ty; decide
theorem TableRow.fldDecodeU8 (n : Bytes) : TableRow.Statement (.fldDecodeU8 n) := fun _ =>
  header_on_row 0x11 0x00 0x1100 rfl
theorem TableRow.fldDecodeI8 (n : Bytes) : TableRow.Statement (.fldDecodeI8 n) := fun _ =>
  header_on_row 0x11 0x01 0x1101 rfl
theorem TableRow.fldDecodeU16 (n : Bytes) : TableRow.Statement (.fldDecodeU16 n) := fun _ =>
  header_on_row 0x11 0x02 0x1102 rfl
theorem TableRow.fldDecodeI16 (n : Bytes) : TableRow.Statement (.fldDecodeI16 n) := fun _ =>
  header_on_row 0x11 0x03 0x1103 rfl
theorem TableRow.fldDecodeU32 (n : Bytes) : TableRow.Statement (.fldDecodeU32 n) := fun _ =>
  header_on_row 0x11 0x04 0x1104 rfl
theorem TableRow.fldDecodeI32 (n : Bytes) : TableRow.Statement (.fldDecodeI32 n) := fun _ =>
  header_on_row 0x11 0x05 0x1105 rfl
theorem TableRow.fldDecodeF32 (n : Bytes) : TableRow.Statement (.fldDecodeF32 n) := fun _ =>
  header_on_row 0x11 0x06 0x1106 rfl
theorem TableRow.fldDecodeF64 (n : Bytes) : TableRow.Statement (.fldDecodeF64 n) := fun _ =>
  header_on_row 0x11 0x07 0x1107 rfl
theorem TableRow.fldDecodeFxp32 (n : Bytes) : TableRow.Statement (.fldDecodeFxp32 n) := fun _ =>
  header_on_row 0x11 0x08 0x1108 rfl
theorem TableRow.fldDecodeFxp16 (n : Bytes) : TableRow.Statement (.fldDecodeFxp16 n) := fun _ =>
  header_on_row 0x11 0x09 0x1109 rfl
theorem TableRow.fldDecodeTy10 (n : Bytes) : TableRow.Statement (.fldDecodeTy10 n) := fun _ =>
  header_on_row 0x11 0x0A 0x110A rfl
theorem TableRow.fldDecodeTy11 (n : Bytes) : TableRow.Statement (.fldDecodeTy11 n) := fun _ =>
  header_on_row 0x11 0x0B 0x110B rfl
theorem TableRow.fldDecodeTy12 (n : Bytes) : TableRow.Statement (.fldDecodeTy12 n) := fun _ =>
  header_on_row 0x11 0x0C 0x110C rfl
theorem TableRow.fldDecodeTy13 (n : Bytes) : TableRow.Statement (.fldDecodeTy13 n) := fun _ =>
  header_on_row 0x11 0x0D 0x110D rfl
theorem TableRow.fldDecodeTy14 (n : Bytes) : TableRow.Statement (.fldDecodeTy14 n) := fun _ =>
  header_on_row 0x11 0x0E 0x110E rfl
theorem TableRow.fldDecodeTy15 (n : Bytes) : TableRow.Statement (.fldDecodeTy15 n) := fun _ =>
  header_on_row 0x11 0x0F 0x110F rfl
theorem TableRow.fldEncodeU8 (n : IntOperand) : TableRow.Statement (.fldEncodeU8 n) := fun _ =>
  header_on_row 0x12 0x00 0x1200 rfl
theorem TableRow.fldEncodeI8 (n : IntOperand) : TableRow.Statement (.fldEncodeI8 n) := fun _ =>
  header_on_row 0x12 0x01 0x1201 rfl
theorem TableRow.fldEncodeU16 (n : IntOperand) : TableRow.Statement (.fldEncodeU16 n) := fun _ =>
  header_on_row 0x12 0x02 0x1202 rfl
theorem TableRow.fldEncodeI16 (n : IntOperand) : TableRow.Statement (.fldEncodeI16 n) := fun _ =>
  header_on_row 0x12 0x03 0x1203 rfl
theorem TableRow.fldEncodeU32 (n : IntOperand) : TableRow.Statement (.fldEncodeU32 n) := fun _ =>
  header_on_row 0x12 0x04 0x1204 rfl
theorem TableRow.fldEncodeI32 (n : IntOperand) : TableRow.Statement (.fldEncodeI32 n) := fun _ =>
  header_on_row 0x12 0x05 0x1205 rfl
theorem TableRow.fldEncodeF32 (n : BitVec 64) : TableRow.Statement (.fldEncodeF32 n) := fun _ =>
  header_on_row 0x12 0x06 0x1206 rfl
theorem TableRow.fldEncodeF64 (n : BitVec 64) : TableRow.Statement (.fldEncodeF64 n) := fun _ =>
  header_on_row 0x12 0x07 0x1207 rfl
theorem TableRow.fldEncodeFxp32 (n : RealOperand) : TableRow.Statement (.fldEncodeFxp32 n) := fun _ =>
  header_on_row 0x12 0x08 0x1208 rfl
theorem TableRow.fldEncodeFxp16 (n : RealOperand) : TableRow.Statement (.fldEncodeFxp16 n) := fun _ =>
  header_on_row 0x12 0x09 0x1209 rfl
theorem TableRow.fldEncodeTy10 (n : BitVec 64) : TableRow.Statement (.fldEncodeTy10 n) := fun _ =>
  header_on_row 0x12 0x0A 0x120A rfl
theorem TableRow.fldEncodeTy11 (n : BitVec 64) : TableRow.Statement (.fldEncodeTy11 n) := fun _ =>
  header_on_row 0x12 0x0B 0x120B rfl
theorem TableRow.fldEncodeTy12 (n : BitVec 64) : TableRow.Statement (.fldEncodeTy12 n) := fun _ =>
  header_on_row 0x12 0x0C 0x120C rfl
theorem TableRow.fldEncodeTy13 (n : BitVec 64) : TableRow.Statement (.fldEncodeTy13 n) := fun _ =>
  header_on_row 0x12 0x0D 0x120D rfl
theorem TableRow.fldEncodeTy14 (n : BitVec 64) : TableRow.Statement (.fldEncodeTy14 n) := fun _ =>
  header_on_row 0x12 0x0E 0x120E rfl
theorem TableRow.fldEncodeTy15 (n : BitVec 64) : TableRow.Statement (.fldEncodeTy15 n) := fun _ =>
  header_on_row 0x12 0x0F 0x120F rfl
theorem TableRow.mapBuild (n : String) : TableRow.Statement (.mapBuild n) := fun _ =>
  header_on_row 0x20 0x00 0x2000 rfl
theorem TableRow.mapFieldAt (n : BitVec 16) : TableRow.Statement (.mapFieldAt n) := fun _ =>
  header_on_row 0x21 0x00 0x2100 rfl
theorem TableRow.mapFieldNamed (n : String) : TableRow.Statement (.mapFieldNamed n) := fun _ =>
  header_on_row 0x22 0x00 0x2200 rfl
theorem TableRow.mapAllNames : TableRow.Statement .mapAllNames := fun _ =>
  header_on_row 0x23 0x00 0x2300 rfl
theorem TableRow.instrLookup (n : String) : TableRow.Statement (.instrLookup n) := fun _ =>
  header_on_row 0x24 0x00 0x2400 rfl
theorem TableRow.instrName (n : Byte) : TableRow.Statement (.instrName n) := fun _ =>
  header_on_row 0x25 0x00 0x2500 rfl
theorem TableRow.pktChecksum (n : Bytes) : TableRow.Statement (.pktChecksum n) := fun _ =>
  header_on_row 0x30 0x00 0x3000 rfl
theorem TableRow.pktEncode (d : Byte) (r : InstrRef) (p : Bytes) : TableRow.Statement (.pktEncode d r p) := fun _ =>
  header_on_row 0x31 0x00 0x3100 rfl
theorem TableRow.pktDecode (n : Bytes) : TableRow.Statement (.pktDecode n) := fun _ =>
  header_on_row 0x32 0x00 0x3200 rfl
theorem TableRow.rxOne : TableRow.Statement .rxOne := fun _ =>
  header_on_row 0x40 0x00 0x4000 rfl
theorem TableRow.csrRead (n : Byte) : TableRow.Statement (.csrRead n) :=
  fun _ => csr_header_on_row.1 n
theorem TableRow.csrWrite (n : Byte) (v : Word) : TableRow.Statement (.csrWrite n v) :=
  fun _ => csr_header_on_row.2 n
theorem TableRow.illegalCommand (h : Word) : TableRow.Statement (.illegalCommand h) := fun w => w
theorem TableRow.rxByte (b : Byte) : TableRow.Statement (.rxByte b) := by
  intro _; revert b; decide +kernel
theorem TableRow.rxTimeout (x : Byte) : TableRow.Statement (.rxTimeout x) := by
  intro _; revert x; decide +kernel
theorem TableRow.cycleStart : TableRow.Statement .cycleStart := fun _ => rfl
theorem TableRow.frame (d o : Byte) (p : Bytes) : TableRow.Statement (.frame d o p) := by
  intro w
  have hd : d ≠ 0xFF := of_decide_eq_true (Bool.and_eq_true_iff.mp w).1
  have hp : p.length ≤ 253 := of_decide_eq_true (Bool.and_eq_true_iff.mp w).2
  have hl : (BitVec.ofNat 8 (2 + p.length)).toNat = 2 + p.length := by
    rw [BitVec.toNat_ofNat]; omega
  refine Bool.and_eq_true_iff.mpr ⟨Bool.and_eq_true_iff.mpr ⟨bne_iff_ne.mpr hd, decide_eq_true ?_⟩, beq_iff_eq.mpr ?_⟩
  · rw [hl]; omega
  · rw [hl]
    show (([o] ++ p) ++ [cks (frameBody d o p)]).length = 2 + p.length
    rw [List.length_append, List.length_append, List.length_singleton, List.length_singleton]
    omega
theorem TableRow.ping : TableRow.Statement .ping := fun _ => rfl

end Sys2Proof.Laws
end

