-- ==== Sys2Proof/Tests/Slice0.lean ====
section
/-! SUPPORT. Tests: the well-formedness checks, one encoding per constructor written out from R80, R92 to R97, one step per
instruction against the vectors of spec/95_test_vectors.md (named by their numbers there) and the rules' own examples, and for
every statement with hypotheses a witness that meets them. -/

namespace Sys2Proof.Machine.Tests

/-! ### Well-formedness: each check refuses an ill-formed term -/

/-- A legal header is no `ILLEGAL_COMMAND` (R243). -/
theorem test_illFormed_illegalCommand : (Instr.illegalCommand 0x110C).wellFormed = false := by decide

/-- No frame carries the device id `FF` (R83). -/
theorem test_illFormed_frame_deviceId : (Instr.frame 0xFF 0x01 []).wellFormed = false := by decide

/-- A payload has at most 253 bytes (R81). -/
theorem test_illFormed_frame_payload : (Instr.frame 0x01 0x03 (List.replicate 254 0)).wellFormed = false := by decide +kernel

/-! ### Decoding: the words of R97, R92, R90 and R80 -/

theorem test_decode_fldWidth : decodeTableWord 16 0x1009 = some (.fldWidth 9) := by decide
theorem test_decode_fldDecodeU8 : decodeTableWord 16 0x1100 = some (.fldDecodeU8 []) := by decide
theorem test_decode_fldDecodeI8 : decodeTableWord 16 0x1101 = some (.fldDecodeI8 []) := by decide
theorem test_decode_fldDecodeU16 : decodeTableWord 16 0x1102 = some (.fldDecodeU16 []) := by decide
theorem test_decode_fldDecodeI16 : decodeTableWord 16 0x1103 = some (.fldDecodeI16 []) := by decide
theorem test_decode_fldDecodeU32 : decodeTableWord 16 0x1104 = some (.fldDecodeU32 []) := by decide
theorem test_decode_fldDecodeI32 : decodeTableWord 16 0x1105 = some (.fldDecodeI32 []) := by decide
theorem test_decode_fldDecodeF32 : decodeTableWord 16 0x1106 = some (.fldDecodeF32 []) := by decide
theorem test_decode_fldDecodeF64 : decodeTableWord 16 0x1107 = some (.fldDecodeF64 []) := by decide
theorem test_decode_fldDecodeFxp32 : decodeTableWord 16 0x1108 = some (.fldDecodeFxp32 []) := by decide
theorem test_decode_fldDecodeFxp16 : decodeTableWord 16 0x1109 = some (.fldDecodeFxp16 []) := by decide
theorem test_decode_fldDecodeTy10 : decodeTableWord 16 0x110A = some (.fldDecodeTy10 []) := by decide
theorem test_decode_fldDecodeTy11 : decodeTableWord 16 0x110B = some (.fldDecodeTy11 []) := by decide
theorem test_decode_fldDecodeTy12 : decodeTableWord 16 0x110C = some (.fldDecodeTy12 []) := by decide
theorem test_decode_fldDecodeTy13 : decodeTableWord 16 0x110D = some (.fldDecodeTy13 []) := by decide
theorem test_decode_fldDecodeTy14 : decodeTableWord 16 0x110E = some (.fldDecodeTy14 []) := by decide
theorem test_decode_fldDecodeTy15 : decodeTableWord 16 0x110F = some (.fldDecodeTy15 []) := by decide
theorem test_decode_fldEncodeU8 : decodeTableWord 16 0x1200 = some (.fldEncodeU8 (.port 0)) := by decide
theorem test_decode_fldEncodeI8 : decodeTableWord 16 0x1201 = some (.fldEncodeI8 (.port 0)) := by decide
theorem test_decode_fldEncodeU16 : decodeTableWord 16 0x1202 = some (.fldEncodeU16 (.port 0)) := by decide
theorem test_decode_fldEncodeI16 : decodeTableWord 16 0x1203 = some (.fldEncodeI16 (.port 0)) := by decide
theorem test_decode_fldEncodeU32 : decodeTableWord 16 0x1204 = some (.fldEncodeU32 (.port 0)) := by decide
theorem test_decode_fldEncodeI32 : decodeTableWord 16 0x1205 = some (.fldEncodeI32 (.port 0)) := by decide
theorem test_decode_fldEncodeF32 : decodeTableWord 16 0x1206 = some (.fldEncodeF32 0) := by decide
theorem test_decode_fldEncodeF64 : decodeTableWord 16 0x1207 = some (.fldEncodeF64 0) := by decide
theorem test_decode_fldEncodeFxp32 : decodeTableWord 16 0x1208 = some (.fldEncodeFxp32 (.port 0)) := by decide
theorem test_decode_fldEncodeFxp16 : decodeTableWord 16 0x1209 = some (.fldEncodeFxp16 (.port 0)) := by decide
theorem test_decode_fldEncodeTy10 : decodeTableWord 16 0x120A = some (.fldEncodeTy10 0) := by decide
theorem test_decode_fldEncodeTy11 : decodeTableWord 16 0x120B = some (.fldEncodeTy11 0) := by decide
theorem test_decode_fldEncodeTy12 : decodeTableWord 16 0x120C = some (.fldEncodeTy12 0) := by decide
theorem test_decode_fldEncodeTy13 : decodeTableWord 16 0x120D = some (.fldEncodeTy13 0) := by decide
theorem test_decode_fldEncodeTy14 : decodeTableWord 16 0x120E = some (.fldEncodeTy14 0) := by decide
theorem test_decode_fldEncodeTy15 : decodeTableWord 16 0x120F = some (.fldEncodeTy15 0) := by decide
theorem test_decode_mapBuild : decodeTableWord 16 0x2000 = some (.mapBuild "") := by decide
theorem test_decode_mapFieldAt : decodeTableWord 16 0x2100 = some (.mapFieldAt 0) := by decide
theorem test_decode_mapFieldNamed : decodeTableWord 16 0x2200 = some (.mapFieldNamed "") := by decide
theorem test_decode_mapAllNames : decodeTableWord 16 0x2300 = some .mapAllNames := by decide
theorem test_decode_instrLookup : decodeTableWord 16 0x2400 = some (.instrLookup "") := by decide
theorem test_decode_instrName : decodeTableWord 16 0x2500 = some (.instrName 0) := by decide
theorem test_decode_pktChecksum : decodeTableWord 16 0x3000 = some (.pktChecksum []) := by decide
theorem test_decode_pktEncode : decodeTableWord 16 0x3100 = some (.pktEncode 0 (.opcode 0) []) := by decide
theorem test_decode_pktDecode : decodeTableWord 16 0x3200 = some (.pktDecode []) := by decide
theorem test_decode_rxOne : decodeTableWord 16 0x4000 = some .rxOne := by decide
theorem test_decode_csrRead : decodeTableWord 16 0x4102 = some (.csrRead 2) := by decide
theorem test_decode_csrWrite : decodeTableWord 16 0x4201 = some (.csrWrite 1 0) := by decide
theorem test_decode_illegalCommand : decodeTableWord 16 0x3101 = some (.illegalCommand 0x3101) := by decide
theorem test_decode_rxByte : decodeTableWord 16 0x0F7 = some (.rxByte 0xF7) := by decide
theorem test_decode_rxTimeout : decodeTableWord 16 0x100 = some (.rxTimeout 0) := by decide
theorem test_decode_cycleStart : decodeTableWord 0 0 = some .cycleStart := by decide
theorem test_decode_frame : decodeTableWord 48 0xF7010205FFFF = some (.frame 0x05 0x01 []) := by decide
theorem test_decode_ping : decodeTableWord 8 0x01 = some .ping := by decide

/-- `FLD_DECODE` with `arg[7:4] = 2` and a header with no operation are illegal (R243). -/
theorem test_decode_illegal_headers : decodeTableWord 16 0x1120 = some (.illegalCommand 0x1120) ∧
    decodeTableWord 16 0x5000 = some (.illegalCommand 0x5000) ∧
    decodeCommand ⟨0x0000, {}⟩ = .illegalCommand 0x0000 := by decide

/-- A wire string with a wrong checksum, a wrong length or the id `FF` is no frame (R91). -/
theorem test_decode_wire_rejects : decodeTableWord 48 0xFB010205FFFF = none ∧ decodeTableWord 48 0xF7010305FFFF = none ∧
    decodeTableWord 48 0xFD0102FFFFFF = none := by decide

/-! ### One step per instruction -/

/-- The variant of the source's scenario 2 with `PING = 0x01` (95 V2, section 3). -/
def demo : VariantDef :=
  { fieldList := [{ name := "servoId", primitiveType := "u8" }, { name := "goalPosition", primitiveType := "i16" }],
    instructions := [{ name := "PING", opcode := 0x01, description := "d" }] }

/-- Reset with a known `VARIANTS`. -/
def start : State := { State.reset with variants := [("demo", demo)] }

/-- The field at address 0 (V2). -/
def servoId : FieldDescriptor :=
  { name := "servoId", address := 0, byteSize := 1, elementCount := 1, writable := true, primitiveType := "u8",
    toolTipFormatter := "" }

/-- The field at address 1 (V2). -/
def goalPosition : FieldDescriptor :=
  { name := "goalPosition", address := 1, byteSize := 2, elementCount := 1, writable := true, primitiveType := "i16",
    toolTipFormatter := "" }

/-- The map of the demo variant, written out from R160 and R161. -/
def demoMap : MemoryMap :=
  { variant := "demo", fields := [servoId, goalPosition], byAddress := [(0, servoId), (1, goalPosition)],
    byName := [("servoId", servoId), ("goalPosition", goalPosition)], totalMemorySize := 3,
    instructions := [{ name := "PING", opcode := 0x01, description := "d" }] }

/-- `start` with the demo variant selected. -/
def mapped : State := { start with map := some demoMap }

/-- A state with a cycle active and a buffer. -/
def reading (buf : Bytes) : State := { start with active := true, buf := buf }

/-- The big-endian form of `start`. -/
def bigEndian : State := { start with bigend := true }

/-- The last response after an instruction. -/
def answerOf (i : Instr) (s : State) : Option Response :=
  match exec i s with
  | .next t => t.responses.getLast?
  | _ => none

/-- The buffer, `ACTIVE` and the last event after an instruction. -/
def framerAfter (i : Instr) (s : State) : Option (Bytes × Bool × Option Event) :=
  match exec i s with
  | .next t => some (t.buf, t.active, t.events.getLast?)
  | _ => none

/-- A successful response. -/
def good (v : Value) : Option Response := some ⟨0x00, some v⟩

/-- An error response. -/
def bad (code : Byte) : Option Response := some ⟨code, none⟩

/-- R122 example. -/
theorem test_fldWidth_fxp16 : answerOf (.fldWidth 9) start = good (.word 2) := by decide

/-- R122 example. -/
theorem test_fldWidth_unrecognised : answerOf (.fldWidth 13) start = good (.word 4) := by decide

/-- A1. -/
theorem test_fldDecodeU8 : answerOf (.fldDecodeU8 [0xFB]) start = good (.int 251) := by decide

/-- A25. -/
theorem test_fldDecodeU8_empty : answerOf (.fldDecodeU8 []) start = bad 0x04 := by decide

/-- A3. -/
theorem test_fldDecodeI8 : answerOf (.fldDecodeI8 [0x80]) start = good (.int (-128)) := by decide

/-- A4. -/
theorem test_fldDecodeU16_big : answerOf (.fldDecodeU16 [0x34, 0x12]) bigEndian = good (.int 13330) := by decide

/-- A24. -/
theorem test_fldDecodeU16_surplus : answerOf (.fldDecodeU16 [0x34, 0x12, 0x99]) start = good (.int 4660) := by decide

/-- A5. -/
theorem test_fldDecodeI16 : answerOf (.fldDecodeI16 [0xFE, 0xFF]) start = good (.int (-2)) := by decide

/-- A5. -/
theorem test_fldDecodeI16_big : answerOf (.fldDecodeI16 [0xFE, 0xFF]) bigEndian = good (.int (-257)) := by decide

/-- A7. -/
theorem test_fldDecodeU32 : answerOf (.fldDecodeU32 [0x78, 0x56, 0x34, 0x12]) start = good (.int 305419896) := by decide

/-- A10. -/
theorem test_fldDecodeI32 : answerOf (.fldDecodeI32 [0, 0, 0, 0x80]) start = good (.int (-2147483648)) := by decide

/-- A10. -/
theorem test_fldDecodeI32_big : answerOf (.fldDecodeI32 [0, 0, 0, 0x80]) bigEndian = good (.int 128) := by decide

/-- A11. -/
theorem test_fldDecodeF32 : answerOf (.fldDecodeF32 [0, 0, 0x80, 0x3F]) start = good (.f32 0x3F800000) := by decide

/-- A13. -/
theorem test_fldDecodeF64 : answerOf (.fldDecodeF64 [0, 0, 0, 0, 0, 0, 0xF0, 0x3F]) start = good (.f64 0x3FF0000000000000) := by decide

/-- A26. -/
theorem test_fldDecodeF64_short : answerOf (.fldDecodeF64 [0, 0, 0, 0, 0, 0, 0xF0]) start = bad 0x04 := by decide

/-- A15. -/
theorem test_fldDecodeFxp32 : answerOf (.fldDecodeFxp32 [0, 0x80, 0xFF, 0xFF]) start = good (.fixed (-32768) 16) := by decide

/-- A19. -/
theorem test_fldDecodeFxp16 : answerOf (.fldDecodeFxp16 [0xA0, 0xFF]) start = good (.fixed (-96) 6) := by decide

/-- A19. -/
theorem test_fldDecodeFxp16_big : answerOf (.fldDecodeFxp16 [0xA0, 0xFF]) bigEndian = good (.fixed (-24321) 6) := by decide

/-- A27. -/
theorem test_fldDecodeTy10 : answerOf (.fldDecodeTy10 [1, 2, 3, 4]) start = bad 0x13 := by decide

/-- A27. -/
theorem test_fldDecodeTy11 : answerOf (.fldDecodeTy11 [1, 2, 3, 4]) start = bad 0x13 := by decide

/-- A27. -/
theorem test_fldDecodeTy12 : answerOf (.fldDecodeTy12 [1, 2, 3, 4]) start = bad 0x13 := by decide

/-- A27. -/
theorem test_fldDecodeTy13 : answerOf (.fldDecodeTy13 [1, 2, 3, 4]) start = bad 0x13 := by decide

/-- A27. -/
theorem test_fldDecodeTy14 : answerOf (.fldDecodeTy14 [1, 2, 3, 4]) start = bad 0x13 := by decide

/-- A27. -/
theorem test_fldDecodeTy15 : answerOf (.fldDecodeTy15 [1, 2, 3, 4]) start = bad 0x13 := by decide

/-- B1. -/
theorem test_fldEncodeU8 : answerOf (.fldEncodeU8 (.value 251)) start = good (.bytes [0xFB]) := by decide

/-- B3. -/
theorem test_fldEncodeU8_negative : answerOf (.fldEncodeU8 (.port 0xFFFFFFFFFFFFFFFF)) start = bad 0x14 := by decide

/-- B5. -/
theorem test_fldEncodeI8 : answerOf (.fldEncodeI8 (.value (-128))) start = good (.bytes [0x80]) := by decide

/-- B6. -/
theorem test_fldEncodeI8_range : answerOf (.fldEncodeI8 (.value 128)) start = bad 0x14 := by decide

/-- B7. -/
theorem test_fldEncodeU16_big : answerOf (.fldEncodeU16 (.value 4660)) bigEndian = good (.bytes [0x12, 0x34]) := by decide

/-- B8. -/
theorem test_fldEncodeU16_range : answerOf (.fldEncodeU16 (.value 65536)) start = bad 0x14 := by decide

/-- B9. -/
theorem test_fldEncodeI16 : answerOf (.fldEncodeI16 (.value (-2))) start = good (.bytes [0xFE, 0xFF]) := by decide

/-- B11. -/
theorem test_fldEncodeI16_range : answerOf (.fldEncodeI16 (.value 32768)) start = bad 0x14 := by decide

/-- B12. -/
theorem test_fldEncodeU32 : answerOf (.fldEncodeU32 (.value 305419896)) start = good (.bytes [0x78, 0x56, 0x34, 0x12]) := by decide

/-- B15. -/
theorem test_fldEncodeI32 : answerOf (.fldEncodeI32 (.value (-2147483648))) start = good (.bytes [0, 0, 0, 0x80]) := by decide

/-- B17. -/
theorem test_fldEncodeF32 : answerOf (.fldEncodeF32 0x3F800000) bigEndian = good (.bytes [0x3F, 0x80, 0, 0]) := by decide

/-- R95, R142. -/
theorem test_fldEncodeF32_high_bits : answerOf (.fldEncodeF32 0x100000000) start = bad 0x14 := by decide

/-- B18. -/
theorem test_fldEncodeF64 : answerOf (.fldEncodeF64 0x3FF0000000000000) start = good (.bytes [0, 0, 0, 0, 0, 0, 0xF0, 0x3F]) := by decide

/-- B22. -/
theorem test_fldEncodeFxp32 : answerOf (.fldEncodeFxp32 (.value (mkRat (-1) 10))) start = good (.bytes [0x66, 0xE6, 0xFF, 0xFF]) := by decide

/-- B34. -/
theorem test_fldEncodeFxp32_nan : answerOf (.fldEncodeFxp32 (.port 0x7FF8000000000000)) start = bad 0x14 := by decide

/-- B30. -/
theorem test_fldEncodeFxp16 : answerOf (.fldEncodeFxp16 (.value (mkRat 314159 100000))) start = good (.bytes [0xC9, 0x00]) := by decide

/-- B28, -1.5 as binary64. -/
theorem test_fldEncodeFxp16_port : answerOf (.fldEncodeFxp16 (.port 0xBFF8000000000000)) bigEndian = good (.bytes [0xFF, 0xA0]) := by decide

/-- B35. -/
theorem test_fldEncodeTy10 : answerOf (.fldEncodeTy10 1) start = bad 0x13 := by decide

/-- B35. -/
theorem test_fldEncodeTy11 : answerOf (.fldEncodeTy11 1) start = bad 0x13 := by decide

/-- B35. -/
theorem test_fldEncodeTy12 : answerOf (.fldEncodeTy12 1) start = bad 0x13 := by decide

/-- B35. -/
theorem test_fldEncodeTy13 : answerOf (.fldEncodeTy13 1) start = bad 0x13 := by decide

/-- B35. -/
theorem test_fldEncodeTy14 : answerOf (.fldEncodeTy14 1) start = bad 0x13 := by decide

/-- B35. -/
theorem test_fldEncodeTy15 : answerOf (.fldEncodeTy15 1) start = bad 0x13 := by decide

/-- V2. -/
theorem test_mapBuild : (match exec (.mapBuild "demo") start with | .next t => decide (t.map = some demoMap) | _ => false) = true := by decide

/-- 95 section 3. -/
theorem test_mapBuild_unknown : answerOf (.mapBuild "nosuch") start = bad 0x06 := by decide

/-- 95 section 3. -/
theorem test_mapFieldAt_inside : answerOf (.mapFieldAt 2) mapped = good (.field none) := by decide

/-- 95 section 3. -/
theorem test_mapFieldAt : answerOf (.mapFieldAt 1) mapped = good (.field (some goalPosition)) := by decide

/-- 95 section 3. -/
theorem test_mapFieldNamed : answerOf (.mapFieldNamed "goalposition") mapped = good (.field none) := by decide

/-- V2. -/
theorem test_mapFieldNamed_found : answerOf (.mapFieldNamed "servoId") mapped = good (.field (some servoId)) := by decide

/-- 95 section 3. -/
theorem test_mapAllNames : answerOf .mapAllNames mapped = good (.names ["servoId", "goalPosition"]) := by decide

/-- 95 section 3. -/
theorem test_instrLookup : answerOf (.instrLookup "PING") mapped = good (.byte 0x01) := by decide

/-- 95 section 3. -/
theorem test_instrLookup_unknown : answerOf (.instrLookup "PONG") mapped = bad 0x05 := by decide

/-- 95 section 3. -/
theorem test_instrName : answerOf (.instrName 0x01) mapped = good (.row (some ("PING", "d"))) := by decide

/-- 95 section 3. -/
theorem test_instrName_none : answerOf (.instrName 0x7A) mapped = good (.row none) := by decide

/-- K4. -/
theorem test_pktChecksum : answerOf (.pktChecksum [0xFF, 0xFF, 0xFF]) start = good (.byte 0x02) := by decide

/-- E12. -/
theorem test_pktEncode_name : answerOf (.pktEncode 5 (.name "PING") []) mapped = good (.bytes [0xFF, 0xFF, 0x05, 0x02, 0x01, 0xF7]) := by decide

/-- E15. -/
theorem test_pktEncode_order : answerOf (.pktEncode 0xFF (.name "PONG") (List.replicate 254 0)) mapped = bad 0x05 := by decide +kernel

/-- D14. -/
theorem test_pktDecode : answerOf (.pktDecode [0xFF, 0xFF, 0x01, 0x05, 0x03, 0x1E, 0x61, 0x00, 0x78]) start = good (.frame ⟨1, 3, [0x1E, 0x61, 0x00], false⟩) := by decide

/-- D6. -/
theorem test_pktDecode_malformed : answerOf (.pktDecode [0xFF, 0xFF, 0x05, 0x03, 0x01, 0xF7]) start = bad 0x10 := by decide

/-- 95 section 6. -/
theorem test_rxOne : (match exec .rxOne start with | .next t => answerOf (.csrRead 1) t | _ => none) = good (.word 0x0002) := by decide

/-- 95 section 6. -/
theorem test_csrRead_status : answerOf (.csrRead 1) (reading [0xFF, 0xFF, 0x05]) = good (.word 0x000D) := by decide

/-- 95 section 6. -/
theorem test_csrRead_illegal : answerOf (.csrRead 3) start = bad 0x16 := by decide

/-- 95 section 6. -/
theorem test_csrWrite : (match exec (.csrWrite 0 0xFFFF) start with | .next t => answerOf (.csrRead 0) t | _ => none) = good (.word 0x0003) := by decide

/-- 95 section 6. -/
theorem test_csrWrite_readOnly : answerOf (.csrWrite 1 0x0001) start = bad 0x16 := by decide

/-- 95 section 6. -/
theorem test_illegalCommand : answerOf (.illegalCommand 0x5000) start = bad 0x16 := by decide

/-- F1. -/
theorem test_rxByte_completes : framerAfter (.rxByte 0xF7) (reading [0xFF, 0xFF, 0x05, 0x02, 0x01]) =
    some ([], false, some (.frameOut [0xFF, 0xFF, 0x05, 0x02, 0x01, 0xF7] ⟨5, 1, [], true⟩)) := by decide

/-- F6. -/
theorem test_rxByte_bad_length : framerAfter (.rxByte 0x01) (reading [0xFF, 0xFF, 0x07]) = some ([], true, some (.diag .framingError 4)) := by decide

/-- F10. -/
theorem test_rxTimeout : framerAfter (.rxTimeout 0) (reading [0xFF, 0xFF, 0x05, 0x02]) = some ([], false, some (.timeoutOut 4)) := by decide

/-- F10, R92. -/
theorem test_rxTimeout_empty : framerAfter (.rxTimeout 0x55) (reading []) = some ([], false, some (.timeoutOut 0)) := by decide

/-- R240 example. -/
theorem test_cycleStart : framerAfter .cycleStart { start with oneshot := true } = some ([], true, none) := by decide

/-- R200. -/
theorem test_cycleStart_stopped : framerAfter .cycleStart start = some ([], false, none) := by decide

/-- R80, V1. -/
theorem test_frame_arrives : (match exec (.frame 5 1 []) (reading []) with | .next t => t.received | _ => []) =
    [0x0FF, 0x0FF, 0x005, 0x002, 0x001, 0x0F7] := by decide

/-- R90. -/
theorem test_ping_arrives : (match exec .ping (reading []) with | .next t => t.received | _ => []) = [0x001] := by decide

/-- F12. -/
theorem test_step_outside_cycle : (match step { start with turns := [.receive], received := [0x0FF] } with | .next t => t.received | _ => []) = [0x0FF] := by decide

/-- R300, R301. -/
theorem test_step_reset_input : (match step { mapped with turns := [.reset], received := [0x0FF] } with | .next t => (t.map.isSome, t.received) | _ => (true, [])) =
    (false, [0x0FF]) := by decide

/-- 41 section 5. -/
theorem test_layout_second_example : (layout [{ name := "id", primitiveType := "u8" }, { name := "pos", primitiveType := "fxp32" },
      { name := "speed", primitiveType := "fxp16" }, { name := "gain", primitiveType := "f64" },
      { name := "tbl", primitiveType := "u8", elementCount := 4 }, { name := "odd", primitiveType := "q7" },
      { name := "last", primitiveType := "i16" }]).map (fun f => f.address) = [0, 1, 5, 7, 15, 19, 23] := by decide

/-- R168. -/
theorem test_decodeField_array : decodeField { name := "tbl", address := 15, byteSize := 1, elementCount := 4, writable := true, primitiveType := "u8", toolTipFormatter := "" } false [1, 2, 3, 4] = .error .unsupportedFeature := rfl

/-- F8. -/
theorem test_frames_false_header : framesFrom [] ([0xFF, 0xFF, 0x07, 0x04, 0xFF, 0xFF, 0x05, 0x02, 0x01, 0xF7].map .byte) =
    some ([], [.frameOut [0xFF, 0xFF, 0x07, 0x04, 0xFF, 0xFF, 0x05, 0x02] ⟨7, 0xFF, [0xFF, 0x05], false⟩,
      .diag .framingError 1, .diag .framingError 1]) := by decide

/-- F5. -/
theorem test_frames_resynchronize : framesFrom [] ([0x12, 0xFF, 0xFF, 0xFF, 0x05, 0x02, 0x01, 0xF7, 0xFF, 0x00].map .byte) =
    some ([], [.diag .framingError 1, .diag .framingError 1, .frameOut [0xFF, 0xFF, 0x05, 0x02, 0x01, 0xF7] ⟨5, 1, [], true⟩,
      .diag .framingError 2]) := by decide

/-! ### Witnesses: for each statement of Certificates/Slice0/Obligations.lean that has hypotheses, values that meet them -/

theorem test_witness_DecodeInvertsEncode : (Instr.frame 0xFE 0x03 (List.replicate 253 0)).wellFormed = true ∧
    (Instr.illegalCommand 0x5000).wellFormed = true := by decide +kernel

/-- A state with an item for every agent. -/
def allQueues (t : Turn) : State :=
  { start with turns := [t], commands := [⟨0x4000, {}⟩], received := [0x0FF], wire := [[0x01], [0xFF]] }

theorem test_witness_StepRunsDecodedInstruction :
    ((allQueues .command).turns = .command :: [] ∧ (allQueues .command).commands = ⟨0x4000, {}⟩ :: []) ∧
    ((allQueues .receive).turns = .receive :: [] ∧ (allQueues .receive).received = 0x0FF :: []) ∧
    (allQueues .cycleStart).turns = .cycleStart :: [] ∧
    ((allQueues .wire).turns = .wire :: [] ∧ (allQueues .wire).wire = [0x01] :: [[0xFF]] ∧ decode (.wire [0x01]) = .ok .ping) ∧
    ({ allQueues .wire with wire := [[0xFF]] } : State).wire = [0xFF] :: [] ∧
    decode (.wire [0xFF]) = .error .wireShort := by
  refine ⟨⟨rfl, rfl⟩, ⟨rfl, rfl⟩, rfl, ⟨rfl, rfl, rfl⟩, rfl, rfl⟩

theorem test_witness_IllegalHeadersRaiseIllegalCommand : ([0x0000, 0x1010, 0x2001, 0x4001, 0x4300, 0xFFFF] : List Word).all fun h =>
    headerRows.all fun r => h &&& r.1 != r.2 := by decide

theorem test_witness_FldDecodeTwoByteTypes :
    (0x3412 : BitVec 16) = (if bigEndian.bigend then (0x34 : Byte) ++ (0x12 : Byte) else (0x12 : Byte) ++ (0x34 : Byte)) ∧
    (0x1234 : BitVec 16) = (if start.bigend then (0x34 : Byte) ++ (0x12 : Byte) else (0x12 : Byte) ++ (0x34 : Byte)) ∧
    ([0x34] : Bytes).length < 2 := by decide

theorem test_witness_FldDecodeFourByteTypes :
    (0x12345678 : BitVec 32) = (if start.bigend then (0x78 : Byte) ++ (0x56 : Byte) ++ (0x34 : Byte) ++ (0x12 : Byte)
      else (0x12 : Byte) ++ (0x34 : Byte) ++ (0x56 : Byte) ++ (0x78 : Byte)) ∧
    ([1, 2, 3] : Bytes).length < 4 := by decide

theorem test_witness_FldDecodeEightByteType : ∃ (s : State) (m : BitVec 64) (bs : Bytes), bs.length = 7 ∧ bs.length < 8 ∧
    m = (if s.bigend then (1 : Byte) ++ (2 : Byte) ++ (3 : Byte) ++ (4 : Byte) ++ (5 : Byte) ++ (6 : Byte) ++ (7 : Byte) ++ (8 : Byte)
         else (8 : Byte) ++ (7 : Byte) ++ (6 : Byte) ++ (5 : Byte) ++ (4 : Byte) ++ (3 : Byte) ++ (2 : Byte) ++ (1 : Byte)) :=
  ⟨start, _, [1, 2, 3, 4, 5, 6, 7], rfl, by decide, rfl⟩

theorem test_witness_UnrecognisedTypesRaiseUnknownType : 10 ≤ (10 : BitVec 4).toNat ∧ 10 ≤ (15 : BitVec 4).toNat ∧
    Instr.fldDecodeTy10 [1] ∈ [Instr.fldDecodeTy10 [1]] ∧ Instr.fldEncodeTy15 1 ∈ [Instr.fldEncodeTy15 1] := by decide

theorem test_witness_FldEncodeNarrowIntegers :
    (IntOperand.value 255 = .value 255 ∨ ∃ val : BitVec 64, IntOperand.value 255 = .port val ∧ (255 : Int) = val.toInt) ∧
    (IntOperand.port (BitVec.allOnes 64) = .value (-1) ∨
      ∃ val : BitVec 64, IntOperand.port (BitVec.allOnes 64) = .port val ∧ (-1 : Int) = val.toInt) :=
  ⟨.inl rfl, .inr ⟨_, rfl, by decide⟩⟩

theorem test_witness_FldEncodeWideIntegers : ∃ (o : IntOperand) (v : Int) (bs : Bytes),
    (o = .value v ∨ ∃ val : BitVec 64, o = .port val ∧ v = val.toInt) ∧ v = 4294967295 ∧
    bs = [BitVec.ofInt 8 v, BitVec.ofInt 8 (v / 256), BitVec.ofInt 8 (v / 65536), BitVec.ofInt 8 (v / 16777216)] :=
  ⟨.value 4294967295, 4294967295, _, .inl rfl, rfl, rfl⟩

theorem test_witness_FldEncodePatterns : ∃ (val : BitVec 64) (b : Nat → Byte), ∀ k, b k = val.extractLsb' (8 * k) 8 :=
  ⟨0x3F800000, _, fun _ => rfl⟩

theorem test_witness_FldEncodeFixedRoundsToNearest :
    ((0x7FF0000000000000 : BitVec 64).extractLsb' 52 11).toNat = 2047 ∧
    ((0xFFF0000000000000 : BitVec 64).extractLsb' 52 11).toNat = 2047 ∧
    ((0x7FF8000000000001 : BitVec 64).extractLsb' 52 11).toNat = 2047 := ⟨rfl, rfl, rfl⟩

theorem test_witness_FixedPortOperandIsItsRational : ∃ (val : BitVec 64) (e f : Nat) (q : Rat),
    e = (val.extractLsb' 52 11).toNat ∧ f = (val.extractLsb' 0 52).toNat ∧ e ≠ 2047 ∧ e = 2046 ∧
    q = (if val.msb then -1 else 1) * (if e = 0 then (f : Rat) / 2 ^ 1074
      else ((2 ^ 52 + f : Nat) : Rat) * 2 ^ ((e : Int) - 1075)) :=
  ⟨0x7FEFFFFFFFFFFFFF, _, _, _, rfl, rfl, by decide, by decide, rfl⟩

theorem test_witness_RoundNearestMeetsItsRule : (0 < 2 ∧ (6 : Int) = 3 * (2 : Nat)) ∧
    2 * (-1 : Int) = (2 * (-1) + 1) * (2 : Nat) ∧ (0 < 4 ∧ (3 : Int) * (4 : Nat) = 6 * (2 : Nat)) := by decide

theorem test_witness_FieldCodecRoundTrips :
    (PrimType.i16.lo ≤ -32768 ∧ (-32768 : Int) ≤ PrimType.i16.hi) ∧ (PrimType.f64.width ≤ (List.replicate 8 (0xFF : Byte)).length) ∧
    fixedPack .fxp32 16 true (.value (mkRat 3 2)) = .ok [0x00, 0x01, 0x80, 0x00] ∧ (mkRat 3 2 * 2 ^ 16).den = 1 ∧
    fixedPack .fxp16 6 false (.value (mkRat 3 2)) = .ok [0x60, 0x00] ∧ (mkRat 3 2 * 2 ^ 6).den = 1 := by
  refine ⟨by decide, by decide, rfl, ?_, rfl, ?_⟩
  · rw [show mkRat 3 2 * 2 ^ 16 = (98304 : Rat) by norm_num [Rat.mkRat_eq_div]]; rfl
  · rw [show mkRat 3 2 * 2 ^ 6 = (96 : Rat) by norm_num [Rat.mkRat_eq_div]]; rfl

theorem test_witness_PortWordCarriesDecodedValue :
    (PrimType.u32 ∈ [PrimType.u8, .i8, .u16, .i16, .u32, .i32] ∧ PrimType.u32.width ≤ (List.replicate 4 (0xFF : Byte)).length) ∧
    (PrimType.i8 ∈ [PrimType.u8, .i8, .u16, .i16, .u32, .i32] ∧ PrimType.i8.width ≤ ([0x80] : Bytes).length) ∧
    4 ≤ ([0x00, 0x00, 0x00, 0x80] : Bytes).length ∧ 8 ≤ (List.replicate 8 (0xFF : Byte)).length ∧
    2 ≤ ([0xFF, 0x7F] : Bytes).length := by
  decide +kernel

/-- R95: f32 in `val[31:0]`, fixed-point `sext_64(raw)`. -/
theorem test_portWord : (Value.f32 0xFFC00000).portWord = some 0x00000000FFC00000 ∧
    (Value.fixed (-32768) 16).portWord = some 0xFFFFFFFFFFFF8000 ∧ (Value.int 4294967295).portWord = some 0x00000000FFFFFFFF := by
  decide

/-- A field list of 65536 bytes, the most R170 (c) allows. -/
def fullList : List FieldEntry :=
  [{ name := "a", primitiveType := "u8", elementCount := 65535 }, { name := "b", primitiveType := "u8" }]

/-- A definition of a field list and the demo instructions. -/
def defOf (fs : List FieldEntry) : VariantDef := { demo with fieldList := fs }

/-- The total size of R161. -/
def sizeOf161 (d : VariantDef) : Nat :=
  (d.fieldList.map fun e => byteWidth (typeOfName e.primitiveType) * e.elementCount.toNat).sum

theorem test_witness_MapBuildReplacesMapOrRefuses :
    start.variants.lookup "nosuch" = none ∧ start.variants.lookup "demo" = some demo ∧
    ((demo.fieldList.map (·.name)).Nodup ∧ (∀ e ∈ demo.fieldList, e.elementCount ≠ 0) ∧ sizeOf161 demo ≤ 65536 ∧
      (demo.instructions.map (·.name)).Nodup ∧ (demo.instructions.map (·.opcode)).Nodup) ∧
    sizeOf161 (defOf fullList) = 65536 ∧
    ¬ ((defOf [{ name := "x", primitiveType := "u8" }, { name := "x", primitiveType := "u8" }]).fieldList.map (·.name)).Nodup ∧
    (∃ e ∈ (defOf [{ name := "x", primitiveType := "u8", elementCount := 0 }]).fieldList, e.elementCount = 0) ∧
    65536 < sizeOf161 (defOf (fullList ++ [{ name := "c", primitiveType := "i8" }])) ∧
    ¬ (([⟨"A", 1, ""⟩, ⟨"A", 2, ""⟩] : List InstructionRow).map (·.name)).Nodup ∧
    ¬ (([⟨"A", 1, ""⟩, ⟨"B", 1, ""⟩] : List InstructionRow).map (·.opcode)).Nodup := by decide +kernel

theorem test_witness_LayoutIsContiguous : (∀ e ∈ fullList, e.elementCount ≠ 0) ∧
    (fullList.map fun e => byteWidth (typeOfName e.primitiveType) * e.elementCount.toNat).sum ≤ 65536 ∧
    (fullList[1]?).map (·.name) = some "b" := by decide +kernel

theorem test_witness_CompositionKeepsBaseFields : (layout demo.fieldList)[1]? = some goalPosition := by decide

theorem test_witness_FieldLookupsInBuiltMap : start.map = none ∧ wellFormedDef demo = true ∧ mapped.map = some (mapOf "demo" demo) ∧
    goalPosition ∈ layout demo.fieldList ∧ (∀ f ∈ layout demo.fieldList, f.address ≠ 2) ∧
    (∀ e ∈ demo.fieldList, e.name ≠ "goalposition") := by decide

theorem test_witness_InstructionLookupsInBuiltMap : start.map = none ∧ wellFormedDef demo = true ∧ mapped.map = some (mapOf "demo" demo) ∧
    (⟨"PING", 0x01, "d"⟩ : InstructionRow) ∈ demo.instructions ∧ (∀ r ∈ demo.instructions, r.name ≠ "PONG") ∧
    (∀ r ∈ demo.instructions, r.opcode ≠ 0x7A) := by decide

theorem test_witness_LookupsWithoutMapRaiseNoActiveMap : start.map = none ∧
    Instr.mapAllNames ∈ [Instr.mapFieldAt 0, .mapFieldNamed "", .mapAllNames, .instrLookup "", .instrName 0] := by decide

theorem test_witness_ChecksumLaws : ([0x05, 0x02, 0x01] : Bytes).Perm [0x02, 0x01, 0x05] ∧ (0x05 : Byte) ≠ 0x04 := by decide

theorem test_witness_PktEncodeBuildsFrameOrRefuses :
    (∃ body : Bytes, body = [0x05, BitVec.ofNat 8 (2 + ([] : Bytes).length), 0x01] ++ ([] : Bytes)) ∧
    mapped.map = some demoMap ∧ (⟨"PING", 0x01, "d"⟩ : InstructionRow) ∈ demoMap.instructions ∧
    (demoMap.instructions.map (·.name)).Nodup ∧ (∀ r ∈ demoMap.instructions, r.name ≠ "PONG") ∧ start.map = none :=
  ⟨⟨_, rfl⟩, by decide⟩

theorem test_witness_PktDecodeReadsWindow :
    ((0x05 : Byte) ≠ 0xFF ∧ (0x02 : Byte).toNat = ([] : Bytes).length + 2 ∧
      (0xFF : Byte).toNat = (List.replicate 253 (0 : Byte)).length + 2) ∧
    ([0xFF, 0xFF, 0x05, 0x02, 0x01] : Bytes).length < 6 ∧
    ∀ w ∈ [([0xFE, 0xFF, 0x05, 0x02, 0x01, 0xF7] : Bytes), [0xFF, 0x7F, 0x05, 0x02, 0x01, 0xF7], [0xFF, 0xFF, 0xFF, 0x02, 0x01, 0xFD],
        [0xFF, 0xFF, 0x05, 0x03, 0x01, 0xF7], [0xFF, 0xFF, 0x05, 0x01, 0x01, 0xF7]],
      6 ≤ w.length ∧ (w[0]? ≠ some 0xFF ∨ w[1]? ≠ some 0xFF ∨ w[2]? = some 0xFF ∨ w[3]?.map BitVec.toNat ≠ some (w.length - 4)) := by
  decide +kernel

theorem test_witness_DecodedFramesMeetInvariants :
    pktDecode [0xFF, 0xFF, 0x05, 0x02, 0x01, 0xFB] = .ok ⟨5, 1, [], false⟩ := rfl

theorem test_witness_PacketRoundTrip : (0xFE : Byte) ≠ 0xFF ∧ (List.replicate 253 (0 : Byte)).length ≤ 253 := by decide +kernel

/-- E1 (95 section 4.2). -/
def pingFrame : Bytes := [0xFF, 0xFF, 0x05, 0x02, 0x01, 0xF7]

theorem test_witness_SingleByteCorruptionIsSeen : pktEncode none 0x05 (.opcode 0x01) [] = .ok pingFrame ∧
    ∀ p ∈ [(0, (0x00 : Byte)), (1, 0x7F), (3, 0x03), (2, 0xFF), (2, 0x04), (4, 0x00), (5, 0xF6)],
      p.1 < pingFrame.length ∧ pingFrame[p.1]? ≠ some p.2 := ⟨rfl, by decide⟩

theorem test_witness_CycleStartWhenEnabled :
    (start.active = false ∧ ({ start with run := true } : State).run = true) ∧ (reading []).active = true ∧
    (start.oneshot = false ∧ start.run = false) := by decide

theorem test_witness_RxByteTransitionTable : (∀ b : Bytes, (reading b).active = true ∧ (reading b).buf = b) ∧
    (0x05 : Byte) ≠ 0xFF ∧ 2 ≤ (0x02 : Byte).toNat ∧ (0x01 : Byte).toNat < 2 ∧
    ([] : Bytes).length + 1 < (0x02 : Byte).toNat ∧ (0x02 : Byte).toNat = ([] : Bytes).length + 2 :=
  ⟨fun _ => ⟨rfl, rfl⟩, by decide⟩

theorem test_witness_RxTimeoutEndsCycle : (reading [0xFF]).active = true := rfl

theorem test_witness_NothingIsTakenOutsideCycle : (allQueues .receive).active = false ∧
    (allQueues .receive).turns = .receive :: [] := by decide

/-- The longest buffer in normal form (F11). -/
def longest : Bytes := [0xFF, 0xFF, 0x01, 0xFF] ++ List.replicate 254 0

theorem test_witness_BufferBounds : normalForm longest = true ∧ longest.length = 258 ∧
    complete (normalise (longest ++ [0xFC])).1 = true ∧
    normalForm [0xFF, 0xFF, 0x07] = true ∧ 0 < (normalise ([0xFF, 0xFF, 0x07] ++ [0x01])).2 := by decide +kernel

theorem test_witness_ResynchronizesBetweenCleanGarbage : freeOfFalseHeaders [0x12, 0xFF] = true ∧
    freeOfFalseHeaders [0xFF, 0x00] = true ∧ freeOfFalseHeaders [0xFF, 0xFF, 0x07, 0x01] = true ∧
    freeOfFalseHeaders [0xFF, 0xFF, 0x07] = false ∧ (0x05 : Byte) ≠ 0xFF ∧ ([] : Bytes).length ≤ 253 ∧
    pingFrame = frameBytes 0x05 0x01 [] := by decide

theorem test_witness_FalseHeaderCapturesBytes : (0x07 : Byte) ≠ 0xFF ∧
    (0x04 : Byte).toNat = ([0xFF, 0x05] : Bytes).length + 2 := by decide

/-- A listening machine with two events to take. -/
def listening : State :=
  { start with run := true, received := [RxEvent.byte 0xFF, .timeout].map RxEvent.word, turns := receiveTurns 2 }

theorem test_witness_RunOfReceiveStepsComputesFrames : FramerOk listening ∧ listening.run = true ∧
    listening.received = [RxEvent.byte 0xFF, .timeout].map RxEvent.word ∧
    listening.turns = receiveTurns [RxEvent.byte 0xFF, .timeout].length := ⟨⟨rfl, fun _ => rfl⟩, rfl, rfl, rfl⟩

theorem test_witness_StepAlwaysAnswersNext : FramerOk (reading longest) := ⟨by decide +kernel, fun h => by cases h⟩

theorem test_witness_StepKeepsMachineOk : MachineOk listening ∧ ∃ s', step listening = .next s' :=
  ⟨⟨⟨rfl, fun _ => rfl⟩, (by intro m h; cases h), (by intro e h; cases h)⟩, _, rfl⟩

theorem test_witness_CsrReadShowsState : normalForm (reading longest).buf = true ∧ 2 < (3 : Byte).toNat ∧
    2 < (0xFF : Byte).toNat := by decide +kernel

theorem test_witness_CsrWriteSetsCtrl : (1 : Byte) ≠ 0 ∧ (2 : Byte) ≠ 0 ∧ (0xFF : Byte) ≠ 0 := by decide

theorem test_witness_EachFlagHasItsWriters :
    (∃ s', exec (.mapBuild "demo") start = .next s' ∧ s'.map ≠ start.map) ∧
    (∃ s', exec (.csrWrite 0 0x0003) start = .next s' ∧ s'.run ≠ start.run ∧ s'.bigend ≠ start.bigend) ∧
    (∃ s', exec .rxOne start = .next s' ∧ s'.oneshot ≠ start.oneshot) ∧
    (∃ s', exec (.rxTimeout 0) (reading [0xFF]) = .next s' ∧ s'.active ≠ (reading [0xFF]).active ∧
      s'.buf ≠ (reading [0xFF]).buf) :=
  ⟨⟨_, rfl, by decide⟩, ⟨_, rfl, by decide⟩, ⟨_, rfl, by decide⟩, ⟨_, rfl, by decide⟩⟩

theorem test_witness_EventsOnlyAppended : ∃ s', exec (.rxByte 0x00) (reading []) = .next s' ∧
    s'.events = [.diag .framingError 1] := ⟨_, rfl, by decide⟩

theorem test_witness_WireBytesReachTransport : (reading []).active = true ∧ start.active = false := by decide

theorem test_witness_WireFrameIsReceived : ∃ s : State, (0x05 : Byte) ≠ 0xFF ∧ ([] : Bytes).length ≤ 253 ∧
    pingFrame = frameBytes 0x05 0x01 [] ∧ s.active = true ∧ s.buf = [] ∧ s.received = [] ∧ s.wire = [pingFrame] ∧
    s.turns = .wire :: receiveTurns pingFrame.length :=
  ⟨{ reading [] with wire := [pingFrame], turns := .wire :: receiveTurns 6 }, by decide, by decide, by decide, rfl, rfl, rfl, rfl, rfl⟩

theorem test_witness_ResetInputClearsTheBlock : ({ mapped with turns := [.reset] } : State).turns = .reset :: [] := rfl

theorem test_witness_StoppedFramerStaysStopped : (allQueues .receive).active = false ∧ (allQueues .receive).oneshot = false ∧
    (allQueues .receive).run = false ∧ (allQueues .receive).turns = .receive :: [] ∧ start.turns = [] := by decide

end Sys2Proof.Machine.Tests
end

/-! The control registers of a block at rest, and the state after reset (R31 to R33, R40). -/

namespace Sys2Proof.Machine

@[simp] theorem bitAt_false (i : Nat) : bitAt false i = 0 := by simp [bitAt]

/-- `CTRL` shows `RUN` and `BIGEND` and nothing else (R31). -/
theorem ctrl_eq_zero {s : State} (hrun : s.run = false) (hbigend : s.bigend = false) : ctrl s = 0 := by
  simp [ctrl, hrun, hbigend]

/-- `STATUS` shows the two cycle flags, the framer's state name and whether a map is selected, and nothing else (R32). -/
theorem status_eq_zero {s : State} (hactive : s.active = false) (honeshot : s.oneshot = false) (hbuf : s.buf = [])
    (hmap : s.map = none) : status s = 0 := by
  simp [status, fstate, hactive, honeshot, hbuf, hmap]

/-- `BUFLEN` shows the length of the buffer and nothing else (R33). -/
theorem buflen_eq_zero {s : State} (hbuf : s.buf = []) : buflen s = 0 := by
  simp [buflen, hbuf]

/-- Settles O54: the fields are those `State.reset` is written with, and the three registers are views of these fields. -/
theorem resetValues : Obligations.ResetValues :=
  have hbuf : State.reset.buf = [] := rfl
  have hrun : State.reset.run = false := rfl
  have hactive : State.reset.active = false := rfl
  have honeshot : State.reset.oneshot = false := rfl
  have hbigend : State.reset.bigend = false := rfl
  have hmap : State.reset.map = none := rfl
  have hevents : State.reset.events = [] := rfl
  ⟨hbuf, hrun, hactive, honeshot, hbigend, hmap, hevents,
    ctrl_eq_zero hrun hbigend, status_eq_zero hactive honeshot hbuf hmap, buflen_eq_zero hbuf⟩

end Sys2Proof.Machine

/-! The FieldCodec (spec/40_field_codec.md): byte strings as words, what `FLD_WIDTH`, `FLD_DECODE` and `FLD_ENCODE` answer, and
`round_nearest`. -/

namespace Sys2Proof.Machine

/-! ### Byte strings as words (R9, R121) -/

/-- The byte string `bs`, most significant byte first, is the word `m`: as wide as the string, and of the same value. -/
def Spells (bs : Bytes) {n : Nat} (m : BitVec n) : Prop := n = 8 * bs.length ∧ uintOf bs = m.toNat

/-- A word with a byte below it. -/
theorem toNat_append_byte {n : Nat} (m : BitVec n) (b : Byte) : (m ++ b).toNat = m.toNat * 256 + b.toNat := by
  rw [BitVec.toNat_append, ← Nat.shiftLeft_add_eq_or_of_lt b.isLt, Nat.shiftLeft_eq]

theorem uintOf_concat (bs : Bytes) (b : Byte) : uintOf (bs ++ [b]) = uintOf bs * 256 + b.toNat := by
  induction bs with
  | nil => simp [uintOf]
  | cons x xs ih =>
    simp only [List.cons_append, uintOf_cons, ih, List.length_append, List.length_singleton, pow_succ]
    ring

theorem spells_singleton (b : Byte) : Spells [b] b := ⟨rfl, by simp [uintOf]⟩

/-- One more byte behind a string is one more byte below its word. -/
theorem Spells.concat {bs : Bytes} {n : Nat} {m : BitVec n} (h : Spells bs m) (b : Byte) : Spells (bs ++ [b]) (m ++ b) := by
  obtain ⟨hn, hm⟩ := h
  refine ⟨by simp [hn, Nat.mul_add], ?_⟩
  rw [uintOf_concat, hm, toNat_append_byte]

theorem Spells.uintOf_eq {bs : Bytes} {n : Nat} {m : BitVec n} (h : Spells bs m) : uintOf bs = m.toNat := h.2

/-- The two's complement value of a string is that of its word. -/
theorem Spells.sintOf_eq {bs : Bytes} {n : Nat} {m : BitVec n} (h : Spells bs m) : sintOf bs = m.toInt := by
  obtain ⟨hn, hm⟩ := h
  have hpow : 256 ^ bs.length = 2 ^ n := by rw [hn, pow_mul]; norm_num
  have hpowInt : (256 ^ bs.length : Int) = (2 ^ n : Nat) := by rw [← hpow]; norm_cast
  rw [sintOf, hm, BitVec.toInt_eq_toNat_cond, hpow, hpowInt]

theorem Spells.ofNat_uintOf {bs : Bytes} {n : Nat} {m : BitVec n} (h : Spells bs m) : BitVec.ofNat n (uintOf bs) = m := by
  rw [h.uintOf_eq, BitVec.ofNat_toNat, BitVec.setWidth_eq]

@[simp] theorem le_singleton (be : Bool) (b : Byte) : le be [b] = [b] := by cases be <;> rfl

/-- Two bytes on the wire are the word `BIGEND` says. -/
theorem spells_le_two (be : Bool) (b0 b1 : Byte) :
    Spells (le be [b0, b1]) (if be then b0 ++ b1 else b1 ++ b0 : BitVec 16) := by
  cases be with
  | true => exact (spells_singleton b0).concat b1
  | false => exact (spells_singleton b1).concat b0

/-- Four bytes on the wire are the word `BIGEND` says. -/
theorem spells_le_four (be : Bool) (b0 b1 b2 b3 : Byte) :
    Spells (le be [b0, b1, b2, b3]) (if be then b0 ++ b1 ++ b2 ++ b3 else b3 ++ b2 ++ b1 ++ b0 : BitVec 32) := by
  cases be with
  | true => exact (((spells_singleton b0).concat b1).concat b2).concat b3
  | false => exact (((spells_singleton b3).concat b2).concat b1).concat b0

/-- Eight bytes on the wire are the word `BIGEND` says. -/
theorem spells_le_eight (be : Bool) (b0 b1 b2 b3 b4 b5 b6 b7 : Byte) :
    Spells (le be [b0, b1, b2, b3, b4, b5, b6, b7]) (if be then b0 ++ b1 ++ b2 ++ b3 ++ b4 ++ b5 ++ b6 ++ b7
      else b7 ++ b6 ++ b5 ++ b4 ++ b3 ++ b2 ++ b1 ++ b0 : BitVec 64) := by
  cases be with
  | true =>
    exact (((((((spells_singleton b0).concat b1).concat b2).concat b3).concat b4).concat b5).concat b6).concat b7
  | false =>
    exact (((((((spells_singleton b7).concat b6).concat b5).concat b4).concat b3).concat b2).concat b1).concat b0

/-- Byte `k` of a word, as division and reduction, is its bits `8k+7 .. 8k`. -/
theorem ofInt_toNat_div_pow {n : Nat} (m : BitVec n) (k : Nat) :
    BitVec.ofInt 8 ((m.toNat : Int) / 256 ^ k) = m.extractLsb' (8 * k) 8 := by
  have hdiv : ((m.toNat : Int) / 256 ^ k) = ((m.toNat / 2 ^ (8 * k) : Nat) : Int) := by
    rw [pow_mul]; norm_num
  rw [hdiv, BitVec.ofInt_natCast, BitVec.extractLsb', Nat.shiftRight_eq_div_pow]

/-! ### The command headers of the FieldCodec (R93, R94) -/

@[simp] theorem header_op (op arg : Byte) : (header op arg).extractLsb' 8 8 = op := by
  apply BitVec.eq_of_toNat_eq
  rw [BitVec.extractLsb'_toNat, header, toNat_append_byte, Nat.shiftRight_eq_div_pow]
  omega

@[simp] theorem header_argHigh (op : Byte) (ty : BitVec 4) : (header op (ty.setWidth 8)).extractLsb' 4 4 = 0 := by
  apply BitVec.eq_of_toNat_eq
  rw [BitVec.extractLsb'_toNat, header, toNat_append_byte, Nat.shiftRight_eq_div_pow, BitVec.toNat_setWidth]
  change (op.toNat * 256 + ty.toNat % 2 ^ 8) / 2 ^ 4 % 2 ^ 4 = 0
  omega

@[simp] theorem header_typeCode (op : Byte) (ty : BitVec 4) : (header op (ty.setWidth 8)).extractLsb' 0 4 = ty := by
  apply BitVec.eq_of_toNat_eq
  rw [BitVec.extractLsb'_toNat, header, toNat_append_byte, Nat.shiftRight_zero, BitVec.toNat_setWidth]
  omega

theorem header_add_typeCode : ∀ ty : BitVec 4, 0x1000 + ty.setWidth 16 = header 0x10 (ty.setWidth 8) ∧
    0x1100 + ty.setWidth 16 = header 0x11 (ty.setWidth 8) ∧ 0x1200 + ty.setWidth 16 = header 0x12 (ty.setWidth 8) := by
  decide

theorem decodeCommand_fldWidth {h : Word} {ty : BitVec 4} (hh : h = header 0x10 (ty.setWidth 8)) (o : Lanes) :
    decodeCommand ⟨h, o⟩ = .fldWidth ty := by
  simp [decodeCommand, hh]

theorem decodeCommand_fldDecode {h : Word} {ty : BitVec 4} (hh : h = header 0x11 (ty.setWidth 8)) (o : Lanes) :
    decodeCommand ⟨h, o⟩ = decodeFldDecode ty o.bytes := by
  simp [decodeCommand, hh]

theorem decodeCommand_fldEncode {h : Word} {ty : BitVec 4} (hh : h = header 0x12 (ty.setWidth 8)) (o : Lanes) :
    decodeCommand ⟨h, o⟩ = decodeFldEncode ty o := by
  simp [decodeCommand, hh]

/-! ### `FLD_DECODE` (R123 to R134) -/

/-- The first `w` bytes are read in the order of `BIGEND`, whatever follows them. -/
theorem fieldDecode_append {t : PrimType} {bs : Bytes} (hlen : bs.length = t.width) (be : Bool) (rest : Bytes) :
    fieldDecode t be (bs ++ rest) = .ok (interpret t (le be bs)) := by
  rw [fieldDecode, if_neg (by simp [hlen]), ← hlen, List.take_left]

theorem fieldDecode_short {t : PrimType} {bs : Bytes} (hlen : bs.length < t.width) (be : Bool) :
    fieldDecode t be bs = .error .decodeError := if_pos hlen

/-- `FLD_DECODE` of a recognised type answers what the common part decodes (R123). -/
theorem exec_decodeFldDecode {ty : BitVec 4} {t : PrimType} (hty : typeOfCode ty = some t) (bs : Bytes) (s : State) :
    exec (decodeFldDecode ty bs) s = .next (s.answer (fieldDecode t s.bigend bs)) := by
  revert hty
  unfold typeOfCode decodeFldDecode
  generalize ty.toNat = n
  split <;> rintro ⟨⟩ <;> rfl

/-- With enough bytes it answers the value of the first ones, and changes nothing else. -/
theorem exec_decodeFldDecode_append {ty : BitVec 4} {t : PrimType} (hty : typeOfCode ty = some t) {bs : Bytes}
    (hlen : bs.length = t.width) (rest : Bytes) (s : State) :
    exec (decodeFldDecode ty (bs ++ rest)) s =
      .next { s with responses := s.responses ++ [⟨0x00, some (interpret t (le s.bigend bs))⟩] } := by
  rw [exec_decodeFldDecode hty, fieldDecode_append hlen]
  rfl

/-- With too few bytes it answers `DecodeError`, and changes nothing else. -/
theorem exec_decodeFldDecode_short {ty : BitVec 4} {t : PrimType} (hty : typeOfCode ty = some t) {bs : Bytes}
    (hlen : bs.length < t.width) (s : State) :
    exec (decodeFldDecode ty bs) s = .next { s with responses := s.responses ++ [⟨0x04, none⟩] } := by
  rw [exec_decodeFldDecode hty, fieldDecode_short hlen]
  rfl

/-- Settles O8: one byte spells itself in both byte orders. -/
theorem fldDecodeOneByteTypes : Obligations.FldDecodeOneByteTypes := by
  intro s b rest o
  have hspells : Spells (le s.bigend [b]) b := by
    rw [le_singleton]
    exact spells_singleton b
  have hlen : [b].length = 1 := rfl
  have hshort : ([] : Bytes).length < 1 := Nat.one_pos
  refine ⟨decodeCommand_fldDecode (ty := 0) rfl o, decodeCommand_fldDecode (ty := 1) rfl o, ?_, ?_,
    exec_decodeFldDecode_short (ty := 0) rfl hshort s, exec_decodeFldDecode_short (ty := 1) rfl hshort s⟩
  · rw [← hspells.uintOf_eq]
    exact exec_decodeFldDecode_append (ty := 0) rfl hlen rest s
  · rw [← hspells.sintOf_eq]
    exact exec_decodeFldDecode_append (ty := 1) rfl hlen rest s

/-- Settles O9: two bytes in the order of `BIGEND` spell the word `m`, and each type reads that word its own way. -/
theorem fldDecodeTwoByteTypes : Obligations.FldDecodeTwoByteTypes := by
  refine ⟨?_, ?_, fun o => ⟨decodeCommand_fldDecode (ty := 2) rfl o, decodeCommand_fldDecode (ty := 3) rfl o,
    decodeCommand_fldDecode (ty := 9) rfl o⟩⟩
  · rintro s b0 b1 rest m rfl
    have hspells := spells_le_two s.bigend b0 b1
    have hlen : [b0, b1].length = 2 := rfl
    refine ⟨?_, ?_, ?_⟩
    · rw [← hspells.uintOf_eq]
      exact exec_decodeFldDecode_append (ty := 2) rfl hlen rest s
    · rw [← hspells.sintOf_eq]
      exact exec_decodeFldDecode_append (ty := 3) rfl hlen rest s
    · rw [← hspells.sintOf_eq]
      exact exec_decodeFldDecode_append (ty := 9) rfl hlen rest s
  · intro s bs hlen
    exact ⟨exec_decodeFldDecode_short (ty := 2) rfl hlen s, exec_decodeFldDecode_short (ty := 3) rfl hlen s,
      exec_decodeFldDecode_short (ty := 9) rfl hlen s⟩

/-- Settles O10: as for two bytes; `f32` answers the word itself. -/
theorem fldDecodeFourByteTypes : Obligations.FldDecodeFourByteTypes := by
  refine ⟨?_, ?_, fun o => ⟨decodeCommand_fldDecode (ty := 4) rfl o, decodeCommand_fldDecode (ty := 5) rfl o,
    decodeCommand_fldDecode (ty := 6) rfl o, decodeCommand_fldDecode (ty := 8) rfl o⟩⟩
  · rintro s b0 b1 b2 b3 rest m rfl
    have hspells := spells_le_four s.bigend b0 b1 b2 b3
    have hlen : [b0, b1, b2, b3].length = 4 := rfl
    refine ⟨?_, ?_, ?_, ?_⟩
    · rw [← hspells.uintOf_eq]
      exact exec_decodeFldDecode_append (ty := 4) rfl hlen rest s
    · rw [← hspells.sintOf_eq]
      exact exec_decodeFldDecode_append (ty := 5) rfl hlen rest s
    · rw [← hspells.ofNat_uintOf]
      exact exec_decodeFldDecode_append (ty := 6) rfl hlen rest s
    · rw [← hspells.sintOf_eq]
      exact exec_decodeFldDecode_append (ty := 8) rfl hlen rest s
  · intro s bs hlen
    exact ⟨exec_decodeFldDecode_short (ty := 4) rfl hlen s, exec_decodeFldDecode_short (ty := 5) rfl hlen s,
      exec_decodeFldDecode_short (ty := 6) rfl hlen s, exec_decodeFldDecode_short (ty := 8) rfl hlen s⟩

/-- Settles O11: eight bytes in the order of `BIGEND` spell the pattern. -/
theorem fldDecodeEightByteType : Obligations.FldDecodeEightByteType := by
  refine ⟨?_, fun s bs hlen => exec_decodeFldDecode_short (ty := 7) rfl hlen s, decodeCommand_fldDecode (ty := 7) rfl⟩
  rintro s b0 b1 b2 b3 b4 b5 b6 b7 rest m rfl
  rw [← (spells_le_eight s.bigend b0 b1 b2 b3 b4 b5 b6 b7).ofNat_uintOf]
  exact exec_decodeFldDecode_append (ty := 7) rfl (bs := [b0, b1, b2, b3, b4, b5, b6, b7]) rfl rest s

/-! ### Unrecognised types (R124) -/

theorem decodeFldDecode_unrecognised {ty : BitVec 4} (hty : 10 ≤ ty.toNat) (bs : Bytes) :
    decodeFldDecode ty bs ∈ [Instr.fldDecodeTy10 bs, .fldDecodeTy11 bs, .fldDecodeTy12 bs, .fldDecodeTy13 bs,
      .fldDecodeTy14 bs, .fldDecodeTy15 bs] := by
  have hlt := ty.isLt
  unfold decodeFldDecode
  generalize ty.toNat = n at hty hlt
  interval_cases n <;> simp

theorem decodeFldEncode_unrecognised {ty : BitVec 4} (hty : 10 ≤ ty.toNat) (o : Lanes) :
    decodeFldEncode ty o ∈ [Instr.fldEncodeTy10 o.val, .fldEncodeTy11 o.val, .fldEncodeTy12 o.val, .fldEncodeTy13 o.val,
      .fldEncodeTy14 o.val, .fldEncodeTy15 o.val] := by
  have hlt := ty.isLt
  unfold decodeFldEncode
  generalize ty.toNat = n at hty hlt
  interval_cases n <;> simp

theorem exec_unrecognised_decode (bs : Bytes) (s : State) : ∀ i ∈ [Instr.fldDecodeTy10 bs, .fldDecodeTy11 bs,
    .fldDecodeTy12 bs, .fldDecodeTy13 bs, .fldDecodeTy14 bs, .fldDecodeTy15 bs], exec i s = .next (s.raise .unknownType) := by
  simp only [List.forall_mem_cons]
  exact ⟨rfl, rfl, rfl, rfl, rfl, rfl, by simp⟩

theorem exec_unrecognised_encode (v : BitVec 64) (s : State) : ∀ i ∈ [Instr.fldEncodeTy10 v, .fldEncodeTy11 v,
    .fldEncodeTy12 v, .fldEncodeTy13 v, .fldEncodeTy14 v, .fldEncodeTy15 v], exec i s = .next (s.raise .unknownType) := by
  simp only [List.forall_mem_cons]
  exact ⟨rfl, rfl, rfl, rfl, rfl, rfl, by simp⟩

/-- Settles O12: the decoder makes a type code 10 to 15 one of the twelve instructions, and each of these raises the error. -/
theorem unrecognisedTypesRaiseUnknownType : Obligations.UnrecognisedTypesRaiseUnknownType := by
  refine ⟨fun ty o s hty => ?_, fun s bs => exec_unrecognised_decode bs s, fun s v => exec_unrecognised_encode v s⟩
  obtain ⟨-, hdecode, hencode⟩ := header_add_typeCode ty
  rw [decodeCommand_fldDecode hdecode, decodeCommand_fldEncode hencode]
  exact ⟨exec_unrecognised_decode _ s _ (decodeFldDecode_unrecognised hty _),
    exec_unrecognised_encode _ s _ (decodeFldEncode_unrecognised hty o)⟩

/-! ### `FLD_ENCODE` of integers and patterns (R135 to R143) -/

@[simp] theorem bytesOf_one (v : Int) : bytesOf 1 v = [BitVec.ofInt 8 v] := by simp [bytesOf]

@[simp] theorem bytesOf_two (v : Int) : bytesOf 2 v = [BitVec.ofInt 8 (v / 256), BitVec.ofInt 8 v] := by simp [bytesOf]

theorem bytesOf_four (v : Int) : bytesOf 4 v = [BitVec.ofInt 8 (v / 16777216), BitVec.ofInt 8 (v / 65536),
    BitVec.ofInt 8 (v / 256), BitVec.ofInt 8 v] := by simp [bytesOf]

/-- The bytes of a word, most significant first, are its 8-bit groups from the top. -/
theorem bytesOf_toNat {n : Nat} (w : Nat) (m : BitVec n) :
    bytesOf w m.toNat = (List.range w).reverse.map fun k => m.extractLsb' (8 * k) 8 := by
  induction w with
  | zero => rfl
  | succ w ih => rw [bytesOf, ih, ofInt_toNat_div_pow, List.range_succ, List.reverse_concat, List.map_cons]

/-- An instruction that packs the integer `r` as the type `t` answers its bytes when `r` is in the range of `t`, and
`EncodeRangeError` when it is not; it changes nothing else (R135). -/
theorem exec_of_fieldPack {i : Instr} {s : State} {t : PrimType} {r : Int}
    (hexec : exec i s = .next (s.answer ((fieldPack t s.bigend r).map .bytes))) :
    exec i s = .next { s with responses := s.responses ++ [if t.lo ≤ r ∧ r ≤ t.hi
      then ⟨0x00, some (.bytes (le s.bigend (bytesOf t.width r)))⟩ else ⟨0x14, none⟩] } := by
  rw [hexec, fieldPack]
  by_cases hr : t.lo ≤ r ∧ r ≤ t.hi
  · rw [if_pos hr, if_neg (by omega)]
    rfl
  · rw [if_neg hr, if_pos (by omega)]
    rfl

/-! The same by width, with the bytes written out in the order of `BIGEND`. -/

theorem exec_of_fieldPack_one {i : Instr} {s : State} {t : PrimType} {r : Int} (hwidth : t.width = 1)
    (hexec : exec i s = .next (s.answer ((fieldPack t s.bigend r).map .bytes))) :
    exec i s = .next { s with responses := s.responses ++ [if t.lo ≤ r ∧ r ≤ t.hi
      then ⟨0x00, some (.bytes [BitVec.ofInt 8 r])⟩ else ⟨0x14, none⟩] } := by
  rw [exec_of_fieldPack hexec, hwidth, bytesOf_one, le_singleton]

theorem exec_of_fieldPack_two {i : Instr} {s : State} {t : PrimType} {r : Int} (hwidth : t.width = 2)
    (hexec : exec i s = .next (s.answer ((fieldPack t s.bigend r).map .bytes))) :
    exec i s = .next { s with responses := s.responses ++ [if t.lo ≤ r ∧ r ≤ t.hi
      then ⟨0x00, some (.bytes (if s.bigend then [BitVec.ofInt 8 (r / 256), BitVec.ofInt 8 r]
        else [BitVec.ofInt 8 r, BitVec.ofInt 8 (r / 256)]))⟩ else ⟨0x14, none⟩] } := by
  rw [exec_of_fieldPack hexec, hwidth, bytesOf_two]
  rfl

theorem exec_of_fieldPack_four {i : Instr} {s : State} {t : PrimType} {r : Int} (hwidth : t.width = 4)
    (hexec : exec i s = .next (s.answer ((fieldPack t s.bigend r).map .bytes))) :
    exec i s = .next { s with responses := s.responses ++ [if t.lo ≤ r ∧ r ≤ t.hi
      then ⟨0x00, some (.bytes (if s.bigend
        then [BitVec.ofInt 8 (r / 16777216), BitVec.ofInt 8 (r / 65536), BitVec.ofInt 8 (r / 256), BitVec.ofInt 8 r]
        else [BitVec.ofInt 8 r, BitVec.ofInt 8 (r / 256), BitVec.ofInt 8 (r / 65536), BitVec.ofInt 8 (r / 16777216)]))⟩
      else ⟨0x14, none⟩] } := by
  rw [exec_of_fieldPack hexec, hwidth, bytesOf_four]
  rfl

theorem intOf_eq {o : IntOperand} {v : Int} (ho : o = .value v ∨ ∃ val : BitVec 64, o = .port val ∧ v = val.toInt) :
    intOf o = v := by
  rcases ho with rfl | ⟨val, rfl, rfl⟩ <;> rfl

/-- Settles O13: each type packs the integer its operand stands for, by the common part of R135. -/
theorem fldEncodeNarrowIntegers : Obligations.FldEncodeNarrowIntegers := by
  refine ⟨fun l => ⟨decodeCommand_fldEncode (ty := 0) rfl l, decodeCommand_fldEncode (ty := 1) rfl l,
    decodeCommand_fldEncode (ty := 2) rfl l, decodeCommand_fldEncode (ty := 3) rfl l⟩, fun s o v ho => ?_⟩
  obtain rfl := intOf_eq ho
  exact ⟨exec_of_fieldPack_one (t := .u8) rfl rfl, exec_of_fieldPack_one (t := .i8) rfl rfl,
    exec_of_fieldPack_two (t := .u16) rfl rfl, exec_of_fieldPack_two (t := .i16) rfl rfl⟩

/-- Settles O14: as for the narrow types, with four bytes. -/
theorem fldEncodeWideIntegers : Obligations.FldEncodeWideIntegers := by
  refine ⟨fun l => ⟨decodeCommand_fldEncode (ty := 4) rfl l, decodeCommand_fldEncode (ty := 5) rfl l⟩, ?_⟩
  rintro s o v bs ho rfl
  obtain rfl := intOf_eq ho
  exact ⟨exec_of_fieldPack_four (t := .u32) rfl rfl, exec_of_fieldPack_four (t := .i32) rfl rfl⟩

/-- A port word is in the range of `f32` when its high half is zero (R95). -/
theorem f32_range_iff (val : BitVec 64) :
    (PrimType.f32.lo ≤ (val.toNat : Int) ∧ (val.toNat : Int) ≤ PrimType.f32.hi) ↔ val.extractLsb' 32 32 = 0 := by
  have hlt := val.isLt
  have hhigh : val.extractLsb' 32 32 = 0 ↔ val.toNat / 2 ^ 32 % 2 ^ 32 = 0 := by
    rw [← BitVec.toNat_inj, BitVec.extractLsb'_toNat, Nat.shiftRight_eq_div_pow]
    rfl
  rw [hhigh, PrimType.lo, PrimType.hi]
  omega

/-- Every port word is in the range of `f64`. -/
theorem f64_range (val : BitVec 64) : PrimType.f64.lo ≤ (val.toNat : Int) ∧ (val.toNat : Int) ≤ PrimType.f64.hi := by
  have hlt := val.isLt
  rw [PrimType.lo, PrimType.hi]
  omega

/-- Settles O15: a pattern is packed as its unsigned value, whose bytes are the pattern's own. -/
theorem fldEncodePatterns : Obligations.FldEncodePatterns := by
  refine ⟨fun l => ⟨decodeCommand_fldEncode (ty := 6) rfl l, decodeCommand_fldEncode (ty := 7) rfl l⟩, ?_⟩
  intro s val b hb
  have hbytes (w : Nat) : bytesOf w val.toNat = (List.range w).reverse.map b := by
    rw [bytesOf_toNat, funext hb]
  constructor
  · rw [exec_of_fieldPack (i := .fldEncodeF32 val) (t := .f32) rfl, hbytes]
    simp only [f32_range_iff]
    rfl
  · rw [exec_of_fieldPack (i := .fldEncodeF64 val) (t := .f64) rfl, if_pos (f64_range val), hbytes]
    rfl

/-! ### `round_nearest` (R147) -/

/-- `round_nearest` looks at the value of the fraction only. -/
theorem roundNearest_mul_right (n : Int) (d : Nat) {c : Nat} (hc : 0 < c) :
    roundNearest (n * c) (d * c) = roundNearest n d := by
  have hcInt : (0 : Int) < c := by exact_mod_cast hc
  have hquot : n * c / ((d * c : Nat) : Int) = n / d := by
    rw [Nat.cast_mul, Int.mul_ediv_mul_of_pos_left _ _ hcInt]
  have hrem : n * c % ((d * c : Nat) : Int) = n % d * c := by
    rw [Nat.cast_mul, mul_comm n, mul_comm (d : Int), Int.mul_emod_mul_of_pos _ _ hcInt, mul_comm]
  have hbelow : 2 * (n % d * c) < ((d * c : Nat) : Int) ↔ 2 * (n % d) < d := by
    rw [Nat.cast_mul, ← mul_assoc, mul_lt_mul_iff_left₀ hcInt]
  have habove : ((d * c : Nat) : Int) < 2 * (n % d * c) ↔ d < 2 * (n % d) := by
    rw [Nat.cast_mul, ← mul_assoc, mul_lt_mul_iff_left₀ hcInt]
  simp only [roundNearest, hquot, hrem, hbelow, habove]

theorem roundNearest_one (k : Int) : roundNearest k 1 = k := by simp [roundNearest]

theorem roundNearest_half (k : Int) :
    roundNearest (2 * k + 1) 2 = if Config.fxpTieUp k then k + 1 else k := by
  have hquot : (2 * k + 1) / 2 = k := by omega
  have hrem : (2 * k + 1) % 2 = 1 := by omega
  simp [roundNearest, hquot, hrem]

/-- The answer is the lower neighbour when the remainder is at most half of the denominator, or the upper one when it is at
least half. -/
theorem roundNearest_cases (n : Int) (d : Nat) :
    (roundNearest n d = n / d ∧ 2 * (n % d) ≤ d) ∨ (roundNearest n d = n / d + 1 ∧ d ≤ 2 * (n % d)) := by
  unfold roundNearest
  split_ifs with hbelow habove
  · exact .inl ⟨rfl, by omega⟩
  · exact .inr ⟨rfl, by omega⟩
  · exact .inr ⟨rfl, by omega⟩
  · exact .inl ⟨rfl, by omega⟩

/-- The distance of the answer from the fraction, times twice the denominator, is at most the denominator. -/
theorem roundNearest_distance (n : Int) {d : Nat} (hd : 0 < d) : |2 * (roundNearest n d * d - n)| ≤ d := by
  have hdiv : n / d * d + n % d = n := Int.ediv_mul_add_emod n d
  have hlt : n % d < d := Int.emod_lt_of_pos n (by exact_mod_cast hd)
  have hnonneg : 0 ≤ n % d := Int.emod_nonneg n (by omega)
  rw [abs_le]
  rcases roundNearest_cases n d with ⟨hlower, hhalf⟩ | ⟨hupper, hhalf⟩
  · rw [hlower]
    constructor <;> linarith
  · rw [hupper, add_mul]
    constructor <;> linarith

/-- `round_nearest` is within 1/2 of the fraction (R147). -/
theorem roundNearest_within_half (n : Int) {d : Nat} (hd : 0 < d) : |(roundNearest n d : Rat) - n / d| ≤ 1 / 2 := by
  have hdRat : (0 : Rat) < d := by exact_mod_cast hd
  have hdist : |2 * ((roundNearest n d : Rat) * d - n)| ≤ d := by exact_mod_cast roundNearest_distance n hd
  have hfrac : (roundNearest n d : Rat) - n / d = 2 * (roundNearest n d * d - n) / (2 * d) := by field_simp
  rw [hfrac, abs_div, abs_of_pos (by positivity : (0 : Rat) < 2 * d), div_le_div_iff₀ (by positivity) two_pos]
  linarith

/-- Settles O18: a fraction in another form is the same fraction with both terms multiplied, so an integer is read off with
denominator 1, and an exact half with denominator 2. -/
theorem roundNearestMeetsItsRule : Obligations.RoundNearestMeetsItsRule := by
  intro n d hd
  refine ⟨roundNearest_within_half n hd, ?_, ?_, ?_⟩
  · rintro k rfl
    simpa [roundNearest_one] using roundNearest_mul_right k 1 hd
  · intro k hk
    calc roundNearest n d
        = roundNearest (n * (2 : Nat)) (d * 2) := (roundNearest_mul_right n d two_pos).symm
      _ = roundNearest ((2 * k + 1) * d) (2 * d) := by rw [← hk, mul_comm d 2, mul_comm n]; rfl
      _ = roundNearest (2 * k + 1) 2 := roundNearest_mul_right _ 2 hd
      _ = if Config.fxpTieUp k then k + 1 else k := roundNearest_half k
  · intro n' d' hd' heq
    calc roundNearest n' d'
        = roundNearest (n' * d) (d' * d) := (roundNearest_mul_right n' d' hd).symm
      _ = roundNearest (n * d') (d * d') := by rw [heq, mul_comm d']
      _ = roundNearest n d := roundNearest_mul_right n d hd'

/-! ### `FLD_WIDTH` (R122) -/

/-- The width of each type code (R94, R122). -/
theorem byteWidth_typeOfCode : ∀ ty : BitVec 4, BitVec.ofNat 16 (byteWidth (typeOfCode ty)) =
    if ty = 0 ∨ ty = 1 then 1 else if ty = 2 ∨ ty = 3 ∨ ty = 9 then 2 else if ty = 7 then 8 else 4 := by
  decide

/-- The names of the ten types (R120). -/
def typeNames : List String := ["u8", "i8", "u16", "i16", "u32", "i32", "f32", "f64", "fxp32", "fxp16"]

/-- Only the ten names stand for a type (R94, R120). -/
theorem typeOfName_eq_none {n : String} (hn : n ∉ typeNames) : typeOfName n = none := by
  simp only [typeNames, List.mem_cons, List.not_mem_nil, or_false, not_or] at hn
  simp [typeOfName, List.lookup_eq_none_iff, hn]

theorem byteWidth_typeOfName (n : String) : byteWidth (typeOfName n) =
    if n = "u8" ∨ n = "i8" then 1 else if n = "u16" ∨ n = "i16" ∨ n = "fxp16" then 2 else if n = "f64" then 8 else 4 := by
  by_cases hn : n ∈ typeNames
  · revert n
    decide
  · rw [typeOfName_eq_none hn]
    simp only [typeNames, List.mem_cons, List.not_mem_nil, or_false, not_or] at hn
    simp [byteWidth, hn]

/-- Settles O7: by type code, over the sixteen codes; by name, the ten type names and the fallback width for any other. -/
theorem fldWidthAnswersWidth : Obligations.FldWidthAnswersWidth := by
  refine ⟨fun ty o s => ?_, byteWidth_typeOfName⟩
  obtain ⟨hheader, -, -⟩ := header_add_typeCode ty
  refine ⟨decodeCommand_fldWidth hheader o, ?_⟩
  rw [← byteWidth_typeOfCode]
  rfl

end Sys2Proof.Machine

/-! The MemoryMap and the InstructionTable (spec/41_memory_map.md): what `MAP_BUILD` checks and builds, and what the lookups
answer. -/

namespace Sys2Proof.Machine

/-! ### The command headers of the MemoryMap (R93, R97) -/

@[simp] theorem header_arg (op arg : Byte) : (header op arg).extractLsb' 0 8 = arg := by
  apply BitVec.eq_of_toNat_eq
  rw [BitVec.extractLsb'_toNat, header, toNat_append_byte, Nat.shiftRight_zero]
  omega

/-- A command that wants `arg = 0` decodes to the instruction of its `op` (R97): no `op` that takes an argument is one of
theirs. -/
theorem decodeCommand_plain {h : Word} {op : Byte} {o : Lanes} {i : Instr} (hh : h = header op 0)
    (hi : decodePlain op o = some i) : decodeCommand ⟨h, o⟩ = i := by
  simp only [decodeCommand, hh, header_op, header_arg, hi]
  split
  case h_6 => rfl
  all_goals
    rename_i hop
    simp [decodePlain, hop] at hi

/-! ### The addresses of a layout (R160, R161) -/

/-- A layout ends behind the sizes of all its entries. -/
theorem endAddress_eq_sum (a : Nat) (es : List FieldEntry) :
    endAddress a es = a + (es.map fun e => entryWidth e * e.elementCount.toNat).sum := by
  induction es generalizing a with
  | nil => rfl
  | cons e es ih => rw [endAddress, ih, List.map_cons, List.sum_cons, Nat.add_assoc]

theorem entryWidth_bounds (e : FieldEntry) : 0 < entryWidth e ∧ entryWidth e ≤ 8 := by
  unfold entryWidth
  cases typeOfName e.primitiveType with
  | none => decide
  | some t => cases t <;> decide

/-- An entry without a zero count takes at least one byte (R170 (b)). -/
theorem entrySize_pos {e : FieldEntry} (hcount : e.elementCount ≠ 0) : 0 < entryWidth e * e.elementCount.toNat :=
  Nat.mul_pos (entryWidth_bounds e).1 (by bv_omega)

/-- The descriptor of a last entry ends where the layout ends: as the entry is not empty, its start is a 16-bit address even
when the layout ends at 65536. -/
theorem totalSize_layoutFrom_cons {a : Nat} {e : FieldEntry} {es : List FieldEntry}
    (hcount : ∀ x ∈ e :: es, x.elementCount ≠ 0) (hend : endAddress a (e :: es) ≤ 65536) :
    totalSize (layoutFrom a (e :: es)) = endAddress a (e :: es) := by
  induction es generalizing a e with
  | nil =>
    have hsize := entrySize_pos (hcount e List.mem_cons_self)
    have hend : a + entryWidth e * e.elementCount.toNat ≤ 65536 := hend
    have hle := (entryWidth_bounds e).2
    have haddress : a % 2 ^ 16 = a := Nat.mod_eq_of_lt (by omega)
    have hwidth : entryWidth e % 2 ^ 16 = entryWidth e := Nat.mod_eq_of_lt (by omega)
    simp only [layoutFrom, totalSize, List.getLast?_singleton, BitVec.toNat_ofNat, haddress, hwidth, endAddress]
  | cons x xs ih => exact ih (fun y hy => hcount y (List.mem_cons_of_mem e hy)) hend

/-- The total size of a map is the end of its layout (R160). -/
theorem totalSize_layout {es : List FieldEntry} (hcount : ∀ e ∈ es, e.elementCount ≠ 0) (hend : endAddress 0 es ≤ 65536) :
    totalSize (layout es) = endAddress 0 es := by
  cases es with
  | nil => rfl
  | cons e es => exact totalSize_layoutFrom_cons hcount hend

/-! ### `MAP_BUILD` (R160, R170) -/

theorem wellFormedDef_iff (d : VariantDef) : wellFormedDef d = true ↔
    (d.fieldList.map (·.name)).Nodup ∧ (∀ e ∈ d.fieldList, e.elementCount ≠ 0) ∧ endAddress 0 d.fieldList ≤ 65536 ∧
      (d.instructions.map (·.name)).Nodup ∧ (d.instructions.map (·.opcode)).Nodup := by
  simp only [wellFormedDef, Bool.and_eq_true, decide_eq_true_eq, List.all_eq_true, bne_iff_ne, and_assoc]

theorem wellFormedDef_eq_false_iff (d : VariantDef) : wellFormedDef d = false ↔
    ¬ (d.fieldList.map (·.name)).Nodup ∨ (∃ e ∈ d.fieldList, e.elementCount = 0) ∨ 65536 < endAddress 0 d.fieldList ∨
      ¬ (d.instructions.map (·.name)).Nodup ∨ ¬ (d.instructions.map (·.opcode)).Nodup := by
  rw [← Bool.not_eq_true, wellFormedDef_iff]
  simp only [not_and_or, not_forall, not_le, ne_eq, not_not, exists_prop]

theorem buildMap_of_lookup_none {vs : Variants} {name : String} (hname : vs.lookup name = none) :
    buildMap vs name = .error .unknownVariant := by
  rw [buildMap, hname]

theorem buildMap_of_lookup_some {vs : Variants} {name : String} {d : VariantDef} (hd : vs.lookup name = some d) :
    buildMap vs name = if wellFormedDef d then .ok (mapOf name d) else .error .malformedTable := by
  rw [buildMap, hd]

theorem exec_mapBuild_of_ok {s : State} {name : String} {m : MemoryMap} (hbuild : buildMap s.variants name = .ok m) :
    exec (.mapBuild name) s =
      .next { s with map := some m, responses := s.responses ++ [⟨0x00, some .unit⟩] } := by
  change execMapBuild name s = _
  rw [execMapBuild, hbuild]
  rfl

theorem exec_mapBuild_of_error {s : State} {name : String} {e : Err} (hbuild : buildMap s.variants name = .error e) :
    exec (.mapBuild name) s = .next { s with responses := s.responses ++ [⟨e.code, none⟩] } := by
  change execMapBuild name s = _
  rw [execMapBuild, hbuild]
  rfl

/-- Settles O21: `MAP_BUILD` builds a map exactly when the definition passes the checks of R170, and the total size of this map,
read off its last descriptor, is then the sum of the sizes. -/
theorem mapBuildReplacesMapOrRefuses : Obligations.MapBuildReplacesMapOrRefuses := by
  refine ⟨fun _ => decodeCommand_plain (op := 0x20) rfl rfl,
    fun s name hname => exec_mapBuild_of_error (buildMap_of_lookup_none hname), ?_⟩
  rintro s name d _ total hd rfl htotal
  have hbuild := buildMap_of_lookup_some hd
  obtain rfl : total = endAddress 0 d.fieldList := by
    rw [htotal, endAddress_eq_sum, Nat.zero_add]
    rfl
  constructor
  · intro hwf
    rw [(wellFormedDef_iff d).2 hwf, if_pos rfl] at hbuild
    obtain ⟨-, hcount, hend, -⟩ := hwf
    rw [exec_mapBuild_of_ok hbuild, mapOf, totalSize_layout hcount hend]
  · intro hmalformed
    rw [(wellFormedDef_eq_false_iff d).2 hmalformed, if_neg Bool.false_ne_true] at hbuild
    exact exec_mapBuild_of_error hbuild

/-! ### The lookups (R163 to R167, R171) -/

/-- An instruction that answers the value `v` appends it to the responses and changes nothing else. -/
theorem exec_of_answer_ok {i : Instr} {s : State} {r : Except Err Value} {v : Value}
    (hexec : exec i s = .next (s.answer r)) (hr : r = .ok v) :
    exec i s = .next { s with responses := s.responses ++ [⟨0x00, some v⟩] } := by
  rw [hexec, hr]
  rfl

/-- An instruction that answers the error `e` appends its code to the responses and changes nothing else. -/
theorem exec_of_answer_error {i : Instr} {s : State} {r : Except Err Value} {e : Err}
    (hexec : exec i s = .next (s.answer r)) (hr : r = .error e) :
    exec i s = .next { s with responses := s.responses ++ [⟨e.code, none⟩] } := by
  rw [hexec, hr]
  rfl

theorem withMap_of_none {s : State} (hmap : s.map = none) (f : MemoryMap → Value) :
    withMap s f = .error .noActiveMap := by
  rw [withMap, hmap]

theorem withMap_of_some {s : State} {m : MemoryMap} (hmap : s.map = some m) (f : MemoryMap → Value) :
    withMap s f = .ok (f m) := by
  rw [withMap, hmap]

/-- Settles O26: four of the lookups go through `withMap` and `INSTR_LOOKUP` through `opcodeNamed`, and both raise the error. -/
theorem lookupsWithoutMapRaiseNoActiveMap : Obligations.LookupsWithoutMapRaiseNoActiveMap := by
  intro s a n c hmap
  have hopcode : (opcodeNamed s.map n).map Value.byte = .error .noActiveMap := by
    rw [hmap]
    rfl
  simp only [List.forall_mem_cons]
  exact ⟨exec_of_answer_error rfl (withMap_of_none hmap _), exec_of_answer_error rfl (withMap_of_none hmap _),
    exec_of_answer_error rfl (withMap_of_none hmap _), exec_of_answer_error rfl hopcode,
    exec_of_answer_error rfl (withMap_of_none hmap _), by simp⟩

/-- In a list without repeated keys a member is the one found by its key. -/
theorem find?_key_of_nodup {α κ : Type} [BEq κ] [LawfulBEq κ] {key : α → κ} {l : List α} (hnodup : (l.map key).Nodup)
    {x : α} (hx : x ∈ l) : (l.find? fun y => key y == key x) = some x := by
  cases hfind : l.find? fun y => key y == key x with
  | none => exact absurd BEq.rfl (List.find?_eq_none.1 hfind x hx)
  | some y =>
    have hkey := List.find?_some hfind
    rw [List.inj_on_of_nodup_map hnodup (List.mem_of_find?_eq_some hfind) hx (eq_of_beq hkey)]

/-- A key of no member finds nothing. -/
theorem find?_key_of_forall_ne {α κ : Type} [BEq κ] [LawfulBEq κ] {key : α → κ} {l : List α} {k : κ}
    (hne : ∀ x ∈ l, key x ≠ k) : (l.find? fun y => key y == k) = none :=
  List.find?_eq_none.2 fun x hx hbeq => hne x hx (eq_of_beq hbeq)

theorem opcodeNamed_of_mem {m : MemoryMap} (hnodup : (m.instructions.map (·.name)).Nodup) {r : InstructionRow}
    (hr : r ∈ m.instructions) : opcodeNamed (some m) r.name = .ok r.opcode := by
  simp only [opcodeNamed, find?_key_of_nodup hnodup hr]

theorem opcodeNamed_of_forall_ne {m : MemoryMap} {n : String} (hne : ∀ r ∈ m.instructions, r.name ≠ n) :
    opcodeNamed (some m) n = .error .unknownInstruction := by
  simp only [opcodeNamed, find?_key_of_forall_ne hne]

theorem exec_instrLookup_of_mem {s : State} {m : MemoryMap} (hmap : s.map = some m)
    (hnodup : (m.instructions.map (·.name)).Nodup) {r : InstructionRow} (hr : r ∈ m.instructions) :
    exec (.instrLookup r.name) s = .next { s with responses := s.responses ++ [⟨0x00, some (.byte r.opcode)⟩] } := by
  refine exec_of_answer_ok rfl ?_
  rw [hmap, opcodeNamed_of_mem hnodup hr]
  rfl

theorem exec_instrLookup_of_forall_ne {s : State} {m : MemoryMap} (hmap : s.map = some m) {n : String}
    (hne : ∀ r ∈ m.instructions, r.name ≠ n) :
    exec (.instrLookup n) s = .next { s with responses := s.responses ++ [⟨0x05, none⟩] } := by
  refine exec_of_answer_error (e := .unknownInstruction) rfl ?_
  rw [hmap, opcodeNamed_of_forall_ne hne]
  rfl

theorem exec_instrName_of_mem {s : State} {m : MemoryMap} (hmap : s.map = some m)
    (hnodup : (m.instructions.map (·.opcode)).Nodup) {r : InstructionRow} (hr : r ∈ m.instructions) :
    exec (.instrName r.opcode) s =
      .next { s with responses := s.responses ++ [⟨0x00, some (.row (some (r.name, r.description)))⟩] } := by
  refine exec_of_answer_ok rfl ?_
  rw [withMap_of_some hmap, find?_key_of_nodup hnodup hr]
  rfl

theorem exec_instrName_of_forall_ne {s : State} {m : MemoryMap} (hmap : s.map = some m) {c : Byte}
    (hne : ∀ r ∈ m.instructions, r.opcode ≠ c) :
    exec (.instrName c) s = .next { s with responses := s.responses ++ [⟨0x00, some (.row none)⟩] } := by
  refine exec_of_answer_ok rfl ?_
  rw [withMap_of_some hmap, find?_key_of_forall_ne hne]
  rfl

/-- Settles O25: a well-formed definition repeats no instruction name and no opcode (R170 (d)), so either key finds its one row. -/
theorem instructionLookupsInBuiltMap : Obligations.InstructionLookupsInBuiltMap := by
  refine ⟨fun _ => ⟨decodeCommand_plain (op := 0x24) rfl rfl, decodeCommand_plain (op := 0x25) rfl rfl⟩, ?_, ?_⟩
  · intro s name d hwf hmap
    obtain ⟨-, -, -, hnames, hopcodes⟩ := (wellFormedDef_iff d).1 hwf
    exact ⟨fun r hr => ⟨exec_instrLookup_of_mem hmap hnames hr, exec_instrName_of_mem hmap hopcodes hr⟩,
      fun n hne => exec_instrLookup_of_forall_ne hmap hne, fun c hne => exec_instrName_of_forall_ne hmap hne⟩
  · intro s n c hmap i hi
    exact lookupsWithoutMapRaiseNoActiveMap s 0 n c hmap i
      (List.mem_cons_of_mem _ (List.mem_cons_of_mem _ (List.mem_cons_of_mem _ hi)))

end Sys2Proof.Machine

/-! The PacketCodec (spec/42_packet_codec.md): the checksum as an arithmetic formula, and what `PKT_CHECKSUM`, `PKT_ENCODE` and
`PKT_DECODE` answer. -/

namespace Sys2Proof.Machine

/-! ### `PKT_CHECKSUM` (R180) -/

theorem cks_eq_ofNat (bs : Bytes) : cks bs = BitVec.ofNat 8 (255 - (bs.map BitVec.toNat).sum % 256) := by
  apply BitVec.eq_of_toNat_eq
  rw [cks_toNat, byteSum_eq_sum, BitVec.toNat_ofNat]
  omega

/-- Settles O27: the one's complement of a byte is 255 minus it. -/
theorem pktChecksumAnswersChecksum : Obligations.PktChecksumAnswersChecksum := by
  intro s bs o
  refine ⟨decodeCommand_plain (op := 0x30) rfl rfl, ?_⟩
  rw [← cks_eq_ofNat]
  rfl

/-! ### `PKT_ENCODE` (R181) -/

/-- A name the active map knows is encoded as its opcode. -/
theorem pktEncode_name_of_ok {map : Option MemoryMap} {n : String} {opcode : Byte} (hop : opcodeNamed map n = .ok opcode)
    (deviceId : Byte) (payload : Bytes) :
    pktEncode map deviceId (.name n) payload = pktEncode map deviceId (.opcode opcode) payload := by
  simp only [pktEncode, opcodeOf, hop]

/-- A name that has no opcode is refused before the device id and the payload are tested. -/
theorem pktEncode_name_of_error {map : Option MemoryMap} {n : String} {e : Err} (hop : opcodeNamed map n = .error e)
    (deviceId : Byte) (payload : Bytes) : pktEncode map deviceId (.name n) payload = .error e := by
  simp only [pktEncode, opcodeOf, hop]

theorem pktEncode_invalidDeviceId (map : Option MemoryMap) (opcode : Byte) (payload : Bytes) :
    pktEncode map 0xFF (.opcode opcode) payload = .error .invalidDeviceId := rfl

theorem pktEncode_payloadTooLong {deviceId : Byte} {payload : Bytes} (hid : deviceId ≠ 0xFF) (hlen : 253 < payload.length)
    (map : Option MemoryMap) (opcode : Byte) :
    pktEncode map deviceId (.opcode opcode) payload = .error .payloadTooLong := by
  simp only [pktEncode, opcodeOf, if_neg hid, if_pos hlen]

/-- A valid id and a payload with a length byte give the frame, whatever the opcode and the map. -/
theorem pktEncode_ok {deviceId : Byte} {payload : Bytes} (hid : deviceId ≠ 0xFF) (hlen : ¬253 < payload.length)
    (map : Option MemoryMap) (opcode : Byte) :
    pktEncode map deviceId (.opcode opcode) payload = .ok (frameBytes deviceId opcode payload) := by
  simp only [pktEncode, opcodeOf, if_neg hid, if_neg hlen]

theorem exec_pktEncode (deviceId : Byte) (instr : InstrRef) (payload : Bytes) (s : State) :
    exec (.pktEncode deviceId instr payload) s =
      .next (s.answer ((pktEncode s.map deviceId instr payload).map .bytes)) := rfl

theorem exec_pktEncode_of_ok {s : State} {deviceId : Byte} {instr : InstrRef} {payload bs : Bytes}
    (henc : pktEncode s.map deviceId instr payload = .ok bs) : exec (.pktEncode deviceId instr payload) s =
      .next { s with responses := s.responses ++ [⟨0x00, some (.bytes bs)⟩] } := by
  refine exec_of_answer_ok (exec_pktEncode deviceId instr payload s) ?_
  rw [henc]
  rfl

theorem exec_pktEncode_of_error {s : State} {deviceId : Byte} {instr : InstrRef} {payload : Bytes} {e : Err}
    (henc : pktEncode s.map deviceId instr payload = .error e) : exec (.pktEncode deviceId instr payload) s =
      .next { s with responses := s.responses ++ [⟨e.code, none⟩] } := by
  refine exec_of_answer_error (exec_pktEncode deviceId instr payload s) ?_
  rw [henc]
  rfl

/-- Of a number: the two refusals in the order of R181, else the frame. -/
theorem exec_pktEncode_opcode (s : State) (deviceId opcode : Byte) (payload : Bytes) :
    exec (.pktEncode deviceId (.opcode opcode) payload) s = .next { s with responses := s.responses ++
      [if deviceId = 0xFF then ⟨0x11, none⟩ else if 253 < payload.length then ⟨0x12, none⟩
       else ⟨0x00, some (.bytes (frameBytes deviceId opcode payload))⟩] } := by
  split_ifs with hid hlen
  · rw [hid]
    exact exec_pktEncode_of_error (pktEncode_invalidDeviceId s.map opcode payload)
  · exact exec_pktEncode_of_error (pktEncode_payloadTooLong hid hlen s.map opcode)
  · exact exec_pktEncode_of_ok (pktEncode_ok hid hlen s.map opcode)

theorem exec_pktEncode_name_of_ok {s : State} {n : String} {opcode : Byte} (hop : opcodeNamed s.map n = .ok opcode)
    (deviceId : Byte) (payload : Bytes) :
    exec (.pktEncode deviceId (.name n) payload) s = exec (.pktEncode deviceId (.opcode opcode) payload) s := by
  rw [exec_pktEncode, exec_pktEncode, pktEncode_name_of_ok hop]

/-- Settles O29: a name stands for the opcode `opcodeNamed` finds, or is refused with its error before anything else. -/
theorem pktEncodeBuildsFrameOrRefuses : Obligations.PktEncodeBuildsFrameOrRefuses := by
  refine ⟨?number, ?known, ?unknown, ?noMap, fun _ => decodeCommand_plain (op := 0x31) rfl rfl⟩
  case number =>
    rintro s deviceId opcode payload body rfl
    rw [← cks_eq_ofNat]
    exact exec_pktEncode_opcode s deviceId opcode payload
  case known =>
    intro s m r deviceId payload hmap hr hnodup
    exact exec_pktEncode_name_of_ok (by rw [hmap, opcodeNamed_of_mem hnodup hr]) deviceId payload
  case unknown =>
    intro s m n deviceId payload hmap hne
    have hop : opcodeNamed s.map n = .error .unknownInstruction := by rw [hmap, opcodeNamed_of_forall_ne hne]
    exact exec_pktEncode_of_error (pktEncode_name_of_error hop deviceId payload)
  case noMap =>
    intro s n deviceId payload hmap
    have hop : opcodeNamed s.map n = .error .noActiveMap := by rw [hmap]; rfl
    exact exec_pktEncode_of_error (pktEncode_name_of_error hop deviceId payload)

/-! ### `PKT_DECODE` (R182) -/

/-- A window of at least 6 bytes has five bytes in front of its payload and one behind it. -/
theorem exists_window_of_six_le {w : Bytes} (hlen : 6 ≤ w.length) : ∃ (h0 h1 deviceId len instruction c : Byte)
    (payload : Bytes), w = [h0, h1, deviceId, len, instruction] ++ payload ++ [c] := by
  match w, hlen with
  | h0 :: h1 :: deviceId :: len :: instruction :: x :: rest, _ =>
    have hne : x :: rest ≠ [] := List.cons_ne_nil x rest
    exact ⟨h0, h1, deviceId, len, instruction, (x :: rest).getLast hne, (x :: rest).dropLast,
      by simp [List.dropLast_append_getLast hne]⟩

/-- `PKT_DECODE` of a window by its parts: the test of R182, and the Frame of a window that passes it. -/
theorem pktDecode_window (h0 h1 deviceId len instruction c : Byte) (payload : Bytes) :
    pktDecode ([h0, h1, deviceId, len, instruction] ++ payload ++ [c]) =
      if h0 ≠ 0xFF ∨ h1 ≠ 0xFF ∨ deviceId = 0xFF ∨ len.toNat ≠ payload.length + 2 then .error .malformedWindow
      else .ok { deviceId := deviceId, instruction := instruction, payload := payload,
                 checksumValid := c == cks ([deviceId, len, instruction] ++ payload) } := by
  cases payload with
  | nil => simp [pktDecode]
  | cons p ps =>
    have hpayload : (p :: (ps ++ [c])).dropLast = p :: ps := by rw [← List.cons_append, List.dropLast_concat]
    have hlast : (p :: (ps ++ [c])).getLast? = some c := by rw [← List.cons_append, List.getLast?_concat]
    simp [pktDecode, hpayload, hlast]

theorem pktDecode_short {w : Bytes} (hlen : w.length < 6) : pktDecode w = .error .parseError := by
  unfold pktDecode
  split
  · simp only [List.length_cons] at hlen
    omega
  · rfl

/-- A window that breaks the precondition of R182 in any of the four ways is refused. -/
theorem pktDecode_malformed {w : Bytes} (hlen : 6 ≤ w.length) (hbad : w[0]? ≠ some 0xFF ∨ w[1]? ≠ some 0xFF ∨
    w[2]? = some 0xFF ∨ w[3]?.map BitVec.toNat ≠ some (w.length - 4)) : pktDecode w = .error .malformedWindow := by
  obtain ⟨h0, h1, deviceId, len, instruction, c, payload, rfl⟩ := exists_window_of_six_le hlen
  rw [pktDecode_window, if_pos]
  simpa using hbad

/-- The checksum byte of a window is right exactly when it is 255 minus the sum of the body modulo 256. -/
theorem beq_cks_body (c deviceId len instruction : Byte) (payload : Bytes) :
    (c == cks ([deviceId, len, instruction] ++ payload)) = decide (c.toNat = 255 -
      (deviceId.toNat + len.toNat + instruction.toNat + (payload.map BitVec.toNat).sum) % 256) := by
  rw [beq_eq_decide, ← byteSum_eq_sum]
  simp only [← BitVec.toNat_inj, cks_toNat, byteSum_append, byteSum_cons, byteSum_nil, Nat.add_zero, Nat.add_assoc]

theorem exec_pktDecode_of_error {s : State} {w : Bytes} {e : Err} (hdec : pktDecode w = .error e) :
    exec (.pktDecode w) s = .next { s with responses := s.responses ++ [⟨e.code, none⟩] } := by
  refine exec_of_answer_error rfl ?_
  rw [hdec]
  rfl

/-- Settles O30: every window of at least 6 bytes is cut into its parts in one way, and R182 tests these parts. -/
theorem pktDecodeReadsWindow : Obligations.PktDecodeReadsWindow := by
  refine ⟨?frame, fun s w hlen => exec_pktDecode_of_error (pktDecode_short hlen),
    fun s w hlen hbad => exec_pktDecode_of_error (pktDecode_malformed hlen hbad),
    fun _ => decodeCommand_plain (op := 0x32) rfl rfl⟩
  case frame =>
    intro s deviceId len instruction c payload hid hlen
    have hdec := pktDecode_window 0xFF 0xFF deviceId len instruction c payload
    rw [if_neg (by simpa [hlen] using hid), beq_cks_body] at hdec
    refine exec_of_answer_ok rfl ?_
    rw [hdec]
    rfl

end Sys2Proof.Machine

/-! The FrameReader (spec/43_frame_reader.md): what an enabled `CYCLE_START` does, and what a receive event does inside a
cycle. -/

namespace Sys2Proof.Machine

/-! ### `CYCLE_START` (R200) -/

/-- The framer starts a cycle from `ACTIVE = 0` when either flag asks for one. -/
theorem exec_cycleStart_of_enabled {s : State} (hactive : s.active = false) (hflag : s.oneshot = true ∨ s.run = true) :
    exec .cycleStart s = .next ((s.setOneshot false).setActive true) := by
  have henabled : (!s.active && (s.oneshot || s.run)) = true := by simpa [hactive] using hflag
  exact congrArg Host.Outcome.next (if_pos henabled)

/-- Settles O34: the two updates of an enabled `CYCLE_START` write `ONESHOT` and `ACTIVE` and no other field. -/
theorem cycleStartWhenEnabled : Obligations.CycleStartWhenEnabled :=
  fun _ hactive hflag => exec_cycleStart_of_enabled hactive hflag

/-! ### Receive events inside a cycle (R92, R201, R203) -/

/-- Bit 8 of a receive word says `timeout`, and the instruction keeps the byte below it (R92). -/
theorem decodeRx_timeoutWord (ignored : Byte) : decodeRx (timeoutWord ignored) = .rxTimeout ignored := by
  have htimeout : (timeoutWord ignored).getLsbD 8 = true := BitVec.getLsbD_append.trans (by simp)
  have hbyte : (timeoutWord ignored).extractLsb' 0 8 = ignored := BitVec.extractLsb'_append_eq_right
  rw [decodeRx, if_pos htimeout, hbyte]

/-- The converse of `consume_next`: the framer writes back what `take` makes of its buffer. -/
theorem consume_of_take {e : RxEvent} {s : State} {t : Taken} (ht : take s.buf e = some t) :
    consume e s = .next (((s.setBuf t.buf).setActive (!t.ends)).emitSome t.event) := by
  rw [consume, ht]

theorem exec_rxTimeout_of_active {s : State} (hactive : s.active = true) (ignored : Byte) :
    exec (.rxTimeout ignored) s = consume .timeout s := if_pos hactive

/-- Settles O36: a timeout takes any buffer, reports its length and ends the cycle, whatever the ignored byte. -/
theorem rxTimeoutEndsCycle : Obligations.RxTimeoutEndsCycle := by
  intro s x hactive
  refine ⟨decodeRx_timeoutWord x, ?_⟩
  rw [exec_rxTimeout_of_active hactive, consume_of_take (take_timeout s.buf)]
  rfl

end Sys2Proof.Machine

/-! The control operations (spec/44_control.md): `RX_ONE`, `CSR_READ`, `CSR_WRITE`, and `ILLEGAL_COMMAND` for every header that
names no operation. -/

namespace Sys2Proof.Machine

/-! ### The control registers as numbers (R31 to R33) -/

/-- `CTRL` holds `RUN` at weight 1 and `BIGEND` at weight 2 (R31). -/
theorem ctrl_eq_ofNat (s : State) : ctrl s = BitVec.ofNat 16 (s.run.toNat + 2 * s.bigend.toNat) := by
  have hbits : ∀ run bigend : Bool, bitAt run 0 ||| bitAt bigend 1 = BitVec.ofNat 16 (run.toNat + 2 * bigend.toNat) := by
    decide
  exact hbits s.run s.bigend

/-- The four fields of `STATUS` do not overlap, so joining them is adding them (R32). -/
theorem status_fields_eq_ofNat : ∀ (active oneshot mapvalid : Bool) (code : Fin 8),
    bitAt active 0 ||| bitAt oneshot 1 ||| (BitVec.ofNat 3 code).setWidth 16 <<< 2 ||| bitAt mapvalid 5 =
      BitVec.ofNat 16 (active.toNat + 2 * oneshot.toNat + 4 * code + 32 * mapvalid.toNat) := by
  decide

/-- `STATUS` holds the two cycle flags, the state name's code and `MAPVALID` at their weights (R32). -/
theorem status_eq_ofNat (s : State) : status s = BitVec.ofNat 16
    (s.active.toNat + 2 * s.oneshot.toNat + 4 * min s.buf.length 5 + 32 * s.map.isSome.toNat) :=
  status_fields_eq_ofNat s.active s.oneshot s.map.isSome ⟨min s.buf.length 5, by omega⟩

/-- A buffer in normal form has at most 258 bytes: behind the first four stand fewer than the fourth, its length byte, says
(R206). -/
theorem length_le_of_normalForm {buf : Bytes} (hnormal : normalForm buf = true) : buf.length ≤ 258 := by
  match buf with
  | [] | [_] | [_, _] | [_, _, _] => simp
  | b0 :: b1 :: b2 :: b3 :: rest =>
    simp only [normalForm, Bool.and_eq_true, decide_eq_true_eq] at hnormal
    obtain ⟨-, hrest⟩ := hnormal
    have hb3 : b3.toNat < 256 := b3.isLt
    simp only [List.length_cons]
    omega

/-- Nine bits hold the length of a buffer in normal form (R33, R206). -/
theorem buflen_eq_ofNat {s : State} (hnormal : normalForm s.buf = true) : buflen s = BitVec.ofNat 16 s.buf.length := by
  have hlen := length_le_of_normalForm hnormal
  apply BitVec.eq_of_toNat_eq
  simp only [buflen, BitVec.toNat_setWidth, BitVec.toNat_ofNat]
  omega

/-- There is no control register above number 2 (R30). -/
theorem csr_of_two_lt {n : Byte} (hn : 2 < n.toNat) (s : State) : csr s n = .error .illegalCommand := by
  unfold csr
  split
  case h_4 => rfl
  all_goals omega

/-! ### The command headers of the control operations (R93, R97) -/

theorem add_arg_eq_header {w : Word} {op : Byte} (hw : w = header op 0) (arg : Byte) :
    w + arg.setWidth 16 = header op arg := by
  have hop : op.toNat < 256 := op.isLt
  have harg : arg.toNat < 256 := arg.isLt
  have hzero : (0 : Byte).toNat = 0 := rfl
  apply BitVec.eq_of_toNat_eq
  simp only [hw, header, BitVec.toNat_add, BitVec.toNat_setWidth, toNat_append_byte, hzero]
  omega

theorem decodeCommand_csrRead {h : Word} {n : Byte} (hh : h = header 0x41 n) (o : Lanes) :
    decodeCommand ⟨h, o⟩ = .csrRead n := by
  simp [decodeCommand, hh]

theorem decodeCommand_csrWrite {h : Word} {n : Byte} (hh : h = header 0x42 n) (o : Lanes) :
    decodeCommand ⟨h, o⟩ = .csrWrite n o.word := by
  simp [decodeCommand, hh]

/-! ### `RX_ONE`, `CSR_READ` and `CSR_WRITE` (R240 to R242) -/

/-- Settles O45: `RX_ONE` writes the flag without looking at it. -/
theorem rxOneSetsOneshot : Obligations.RxOneSetsOneshot :=
  fun _ _ => ⟨decodeCommand_plain (op := 0x40) rfl rfl, rfl⟩

theorem exec_csrRead (n : Byte) (s : State) : exec (.csrRead n) s = .next (s.answer (csr s n)) := rfl

/-- Settles O46: the response holds the register as a number, and answering writes nothing else. -/
theorem csrReadShowsState : Obligations.CsrReadShowsState := by
  refine ⟨fun n o => decodeCommand_csrRead (add_arg_eq_header rfl n) o, fun s => ?_, fun s hnormal => ⟨?_, ?_⟩,
    fun s n hn => ?_⟩
  · rw [← ctrl_eq_ofNat]
    exact exec_of_answer_ok (exec_csrRead 0 s) rfl
  · rw [← status_eq_ofNat]
    exact exec_of_answer_ok (exec_csrRead 1 s) rfl
  · rw [← buflen_eq_ofNat hnormal]
    exact exec_of_answer_ok (exec_csrRead 2 s) rfl
  · exact exec_of_answer_error (exec_csrRead n s) (csr_of_two_lt hn s)

/-- Settles O47: only register 0 is written, and both of its fields at once. -/
theorem csrWriteSetsCtrl : Obligations.CsrWriteSetsCtrl :=
  ⟨fun n o => decodeCommand_csrWrite (add_arg_eq_header rfl n) o,
    fun _ _ => congrArg Host.Outcome.next (if_pos rfl),
    fun _ _ _ hn => congrArg Host.Outcome.next (if_neg hn)⟩

/-! ### `ILLEGAL_COMMAND` (R96, R97, R243) -/

/-- The `op`s of the FieldCodec, which want `arg[7:4] = 0` (R93). -/
def fieldOps : List Byte := [0x10, 0x11, 0x12]

/-- The `op`s that want `arg = 0` (R93). -/
def plainOps : List Byte := [0x20, 0x21, 0x22, 0x23, 0x24, 0x25, 0x30, 0x31, 0x32, 0x40]

/-- The `op`s whose `arg` is any register number (R93). -/
def csrOps : List Byte := [0x41, 0x42]

/-- Every row of R97 fixes `op`, and of `arg` the bits its group of `op`s wants to be 0. -/
theorem headerRows_eq : headerRows = fieldOps.map (fun op => (header 0xFF 0xF0, header op 0)) ++
    plainOps.map (fun op => (header 0xFF 0xFF, header op 0)) ++
    csrOps.map (fun op => (header 0xFF 0x00, header op 0)) := rfl

theorem header_fields (h : Word) : header (h.extractLsb' 8 8) (h.extractLsb' 0 8) = h :=
  (BitVec.extractLsb'_append_extractLsb'_eq_extractLsb' rfl).trans BitVec.extractLsb'_eq_self

/-- A mask over all of `op` leaves it and masks `arg`. -/
theorem header_and_mask (op arg mask : Byte) : header op arg &&& header 0xFF mask = header op (arg &&& mask) := by
  have hop : op &&& 0xFF = op := BitVec.and_allOnes
  rw [header, header, BitVec.and_append, hop, header]

theorem and_highMask_of_argHigh {op arg : Byte} (hhigh : (header op arg).extractLsb' 4 4 = 0) : arg &&& 0xF0 = 0 := by
  have hsplit : arg = (0 : BitVec 4) ++ (header op arg).extractLsb' 0 4 := by
    have hjoin : (header op arg).extractLsb' 4 4 ++ (header op arg).extractLsb' 0 4 = (header op arg).extractLsb' 0 8 :=
      BitVec.extractLsb'_append_extractLsb'_eq_extractLsb' rfl
    rw [← hhigh, hjoin, header_arg]
  have hmask : (0xF0 : Byte) = (0xF : BitVec 4) ++ (0 : BitVec 4) := rfl
  rw [hsplit, hmask, BitVec.and_append]
  simp

/-- What it means for a header that no row of R97 matches it. -/
theorem arg_of_no_row {op arg : Byte} (hrows : ∀ r ∈ headerRows, header op arg &&& r.1 ≠ r.2) :
    (op ∈ fieldOps → (header op arg).extractLsb' 4 4 ≠ 0) ∧ (op ∈ plainOps → arg ≠ 0) ∧ op ∉ csrOps := by
  simp only [headerRows_eq, List.forall_mem_append, List.forall_mem_map, header_and_mask] at hrows
  obtain ⟨⟨hfield, hplain⟩, hcsr⟩ := hrows
  refine ⟨fun hop hhigh => hfield op hop ?_, fun hop harg => hplain op hop ?_, fun hop => hcsr op hop ?_⟩
  · rw [and_highMask_of_argHigh hhigh]
  · rw [harg]
    exact congrArg (header op) BitVec.zero_and
  · exact congrArg (header op) BitVec.and_zero

theorem mem_of_toNat_eq {op : Byte} {k : Nat} {ops : List Byte} (hop : op.toNat = k) (hk : BitVec.ofNat 8 k ∈ ops) :
    op ∈ ops := by
  rwa [← hop, BitVec.ofNat_toNat, BitVec.setWidth_eq] at hk

/-- An `op` outside the plain ones names no plain command (R97). -/
theorem decodePlain_of_not_mem {op : Byte} (hop : op ∉ plainOps) (o : Lanes) : decodePlain op o = none := by
  unfold decodePlain
  split
  case h_11 => rfl
  all_goals
    rename_i hcode
    exact absurd (mem_of_toNat_eq hcode (by decide)) hop

/-- A header no row of R97 matches decodes to `ILLEGAL_COMMAND`: a FieldCodec `op` has a bit in `arg[7:4]`, a plain one an `arg`
other than 0, and any other `op` names no operation. -/
theorem decodeCommand_of_no_row {op arg : Byte} (hrows : ∀ r ∈ headerRows, header op arg &&& r.1 ≠ r.2) (o : Lanes) :
    decodeCommand ⟨header op arg, o⟩ = .illegalCommand (header op arg) := by
  obtain ⟨hfield, hplain, hcsr⟩ := arg_of_no_row hrows
  simp only [decodeCommand, header_op, header_arg]
  split
  case h_1 hop | h_2 hop | h_3 hop =>
    exact if_neg (hfield (mem_of_toNat_eq hop (by decide)))
  case h_4 hop | h_5 hop =>
    exact absurd (mem_of_toNat_eq hop (by decide)) hcsr
  case h_6 =>
    split
    · rename_i harg
      rw [decodePlain_of_not_mem fun hop => hplain hop harg, Option.getD_none]
    · rfl

/-- Settles O6: no row of R97 matches the header, so its `arg` breaks the rule of its `op` or the `op` names no operation. -/
theorem illegalHeadersRaiseIllegalCommand : Obligations.IllegalHeadersRaiseIllegalCommand := by
  refine ⟨fun h o hrows => ?_, fun h s => rfl⟩
  rw [← header_fields h] at hrows ⊢
  exact decodeCommand_of_no_row hrows o

end Sys2Proof.Machine

/-! The exceptions (spec/60_exceptions.md): every host command answers once, and taking an error writes nothing but the response
(R261, R270). -/

namespace Sys2Proof.Machine

/-! ### The instructions of the command port (R93, R97) -/

/-- The instruction is one the command port carries: not a receive event, the framer's own step or a string on the wire. -/
def IsCommand (i : Instr) : Prop := ∃ c, encode i = .command c

theorem isCommand_illegalCommand (h : Word) : IsCommand (.illegalCommand h) := ⟨_, rfl⟩

theorem isCommand_decodeFldDecode (ty : BitVec 4) (bs : Bytes) : IsCommand (decodeFldDecode ty bs) := by
  unfold decodeFldDecode
  split <;> exact ⟨_, rfl⟩

theorem isCommand_decodeFldEncode (ty : BitVec 4) (o : Lanes) : IsCommand (decodeFldEncode ty o) := by
  unfold decodeFldEncode
  split <;> exact ⟨_, rfl⟩

theorem isCommand_of_decodePlain {op : Byte} {o : Lanes} {i : Instr} (hi : decodePlain op o = some i) : IsCommand i := by
  unfold decodePlain at hi
  split at hi <;> cases hi <;> exact ⟨_, rfl⟩

/-- Where the decoder checks `arg` it falls back to `ILLEGAL_COMMAND`, which is a command too (R93, R96). -/
theorem isCommand_ite_illegalCommand {p : Prop} [Decidable p] {i : Instr} (hi : IsCommand i) (h : Word) :
    IsCommand (if p then i else .illegalCommand h) := by
  split
  · exact hi
  · exact isCommand_illegalCommand h

/-- The command decoder never reads an instruction of another port. -/
theorem isCommand_decodeCommand (c : Command) : IsCommand (decodeCommand c) := by
  simp only [decodeCommand]
  split
  case h_1 => exact isCommand_ite_illegalCommand ⟨_, rfl⟩ _
  case h_2 => exact isCommand_ite_illegalCommand (isCommand_decodeFldDecode _ _) _
  case h_3 => exact isCommand_ite_illegalCommand (isCommand_decodeFldEncode _ _) _
  case h_4 | h_5 => exact ⟨_, rfl⟩
  case h_6 =>
    refine isCommand_ite_illegalCommand ?_ _
    cases hplain : decodePlain (c.header.extractLsb' 8 8) c.lanes with
    | none => exact isCommand_illegalCommand _
    | some i => exact isCommand_of_decodePlain hplain

/-! ### What a command does (R261, R270) -/

/-- No command stops the machine: the only meaning with a path to a fault is that of `RXBYTE`, a receive event. -/
theorem exec_command_next {i : Instr} (hi : IsCommand i) (s : State) : ∃ s', exec i s = .next s' := by
  obtain ⟨c, hc⟩ := hi
  cases i with
  | rxByte _ | rxTimeout _ => nomatch hc
  | _ => exact ⟨_, rfl⟩

/-- What a command does: it takes an error, or it answers a value after writing at most `RUN`, `ONESHOT`, `BIGEND` and `MAP`. -/
theorem exec_command_cases {i : Instr} (hi : IsCommand i) {s s' : State} (hexec : exec i s = .next s') :
    (∃ e, s' = s.raise e) ∨
    (∃ run oneshot bigend map v,
      s' = ({ s with run := run, oneshot := oneshot, bigend := bigend, map := map } : State).finish v) := by
  obtain ⟨c, hc⟩ := hi
  rcases exec_cases hexec with ⟨r, rfl⟩ | ⟨_, _, -, -, rfl⟩ | ⟨-, rfl⟩ | ⟨_, -, rfl⟩ | hother
  · rcases answer_cases s r with ⟨v, -, hanswer⟩ | ⟨e, -, hanswer⟩
    · exact .inr ⟨_, _, _, _, v, hanswer⟩
    · exact .inl ⟨e, hanswer⟩
  · exact .inr ⟨_, _, _, _, .unit, rfl⟩
  · exact .inr ⟨_, _, _, _, .unit, rfl⟩
  · exact .inr ⟨_, _, _, _, .unit, rfl⟩
  · rcases hother with ⟨_, rfl, -⟩ | ⟨_, rfl, -⟩ | ⟨_, -, -, ⟨_, rfl⟩ | ⟨_, rfl⟩⟩ | ⟨rfl, -⟩ | ⟨rfl, -⟩ |
      ⟨_, -, ⟨_, _, _, rfl⟩ | rfl⟩ <;> nomatch hc

/-- Settles O48: the decoder reads a command from every header, and a command takes an error, whose code is not 0, or answers a
value with status 0 and leaves every field but `RUN`, `ONESHOT`, `BIGEND` and `MAP`. -/
theorem commandsAnswerOnceAndErrorsWriteNothing : Obligations.CommandsAnswerOnceAndErrorsWriteNothing := by
  intro c s
  have hcommand := isCommand_decodeCommand c
  obtain ⟨s', hexec⟩ := exec_command_next hcommand s
  rcases exec_command_cases hcommand hexec with ⟨e, rfl⟩ | ⟨run, oneshot, bigend, map, v, rfl⟩
  · exact ⟨⟨e.code, none⟩, _, hexec, rfl, rfl, rfl, rfl, rfl, rfl, rfl, rfl, rfl, rfl,
      fun hok => absurd hok (code_ne_ok e), fun _ => ⟨rfl, rfl⟩⟩
  · exact ⟨⟨0x00, some v⟩, _, hexec, rfl, rfl, rfl, rfl, rfl, rfl, rfl, rfl, rfl, rfl,
      fun _ => rfl, fun hne => absurd rfl hne⟩

end Sys2Proof.Machine

/-! The encodings (spec/30_encoding.md): the decoder of each port reads back what the encoder writes, and the encoder gives
back the bits the decoder read. -/

namespace Sys2Proof.Machine

/-! ### The receive port (R92) -/

/-- Bit 8 of a receive word says `byte`, and the instruction keeps the byte below it (R92). -/
theorem decodeRx_byteWord (b : Byte) : decodeRx (byteWord b) = .rxByte b := by
  have hbyteBit : (byteWord b).getLsbD 8 = false := BitVec.getLsbD_append.trans (by simp)
  have hbyte : (byteWord b).extractLsb' 0 8 = b := BitVec.extractLsb'_append_eq_right
  rw [decodeRx, hbyteBit, if_neg Bool.false_ne_true, hbyte]

/-- A receive word is the word of a byte or that of a timeout, by its bit 8 (R92). -/
theorem eq_byteWord_or_timeoutWord (w : BitVec 9) : ∃ b, w = byteWord b ∨ w = timeoutWord b := by
  have hjoin : w.extractLsb' 8 1 ++ w.extractLsb' 0 8 = w.extractLsb' 0 9 :=
    BitVec.extractLsb'_append_extractLsb'_eq_extractLsb' rfl
  have hsplit : w = w.extractLsb' 8 1 ++ w.extractLsb' 0 8 := by rw [hjoin, BitVec.extractLsb'_eq_self]
  refine ⟨w.extractLsb' 0 8, ?_⟩
  rcases BitVec.eq_zero_or_eq_one (w.extractLsb' 8 1) with hbit | hbit
  · exact .inl (hsplit.trans (by rw [hbit]; rfl))
  · exact .inr (hsplit.trans (by rw [hbit]; rfl))

/-! ### The wire (R80 to R85, R90) -/

/-- The wire decoder on a string of at least 6 bytes, by the string's parts: the first rule of R91 it breaks, or its frame. -/
theorem decodeWire_window (h0 h1 deviceId len instruction c : Byte) (payload : Bytes) :
    decodeWire ([h0, h1, deviceId, len, instruction] ++ payload ++ [c]) =
      if h0 ≠ 0xFF ∨ h1 ≠ 0xFF then .error .wireHeader
      else if deviceId = 0xFF then .error .wireDeviceId
      else if len.toNat ≠ payload.length + 2 then .error .wireLength
      else if c ≠ cks (frameBody deviceId instruction payload) then .error .wireChecksum
      else .ok (.frame deviceId instruction payload) := by
  cases payload with
  | nil => simp [decodeWire]
  | cons p ps =>
    have hpayload : (p :: (ps ++ [c])).dropLast = p :: ps := by rw [← List.cons_append, List.dropLast_concat]
    have hlast : (p :: (ps ++ [c])).getLastD 0 = c := by rw [← List.cons_append, List.getLastD_concat]
    simp only [List.cons_append, List.nil_append, decodeWire, hpayload, hlast, List.length_append, List.length_cons,
      List.length_nil]

/-- A string the wire decoder reads a frame from has the six bytes around a payload. -/
theorem six_le_of_decodeWire_frame {t : Bytes} {deviceId instruction : Byte} {payload : Bytes}
    (hdec : decodeWire t = .ok (.frame deviceId instruction payload)) : 6 ≤ t.length := by
  unfold decodeWire at hdec
  split at hdec
  · split at hdec <;> cases hdec
  · simp only [List.length_cons]
    omega
  · cases hdec

/-- The length byte of a frame whose payload it can count (R81). -/
theorem toNat_lengthByte {n : Nat} (hn : n ≤ 253) : (BitVec.ofNat 8 (2 + n)).toNat = n + 2 := by
  rw [BitVec.toNat_ofNat]
  omega

/-- A frame by its parts (R80 to R82). -/
theorem frameBytes_eq_window (deviceId instruction : Byte) (payload : Bytes) :
    frameBytes deviceId instruction payload =
      [0xFF, 0xFF, deviceId, BitVec.ofNat 8 (2 + payload.length), instruction] ++ payload ++
        [cks (frameBody deviceId instruction payload)] := rfl

/-- The wire decoder reads a frame from exactly the encodings of well-formed frames. -/
theorem decodeWire_eq_frame_iff {t : Bytes} {deviceId instruction : Byte} {payload : Bytes} :
    decodeWire t = .ok (.frame deviceId instruction payload) ↔
      deviceId ≠ 0xFF ∧ payload.length ≤ 253 ∧ t = frameBytes deviceId instruction payload := by
  constructor
  · intro hdec
    obtain ⟨h0, h1, id, len, op, c, body, rfl⟩ := exists_window_of_six_le (six_le_of_decodeWire_frame hdec)
    rw [decodeWire_window] at hdec
    split_ifs at hdec with hheader hid hlen hsum
    obtain ⟨rfl, rfl⟩ := not_or.1 hheader |>.imp not_not.1 not_not.1
    cases hdec
    have hcount : len.toNat = payload.length + 2 := not_not.1 hlen
    have hbyte : len.toNat < 256 := len.isLt
    have hlenByte : len = BitVec.ofNat 8 (2 + payload.length) := by
      rw [Nat.add_comm, ← hcount, BitVec.ofNat_toNat, BitVec.setWidth_eq]
    refine ⟨hid, by omega, ?_⟩
    rw [frameBytes_eq_window, ← hlenByte, not_not.1 hsum]
  · rintro ⟨hid, hlen, rfl⟩
    rw [frameBytes_eq_window, decodeWire_window, if_neg (by simp), if_neg hid,
      if_neg (not_not.2 (toNat_lengthByte hlen)), if_neg (not_not.2 rfl)]

/-- Settles O3: the checksum of the body is the wire layout's last byte, written out as 255 minus the body's sum. -/
theorem wireDecoderReadsExactlyFrames : Obligations.WireDecoderReadsExactlyFrames := by
  intro t deviceId instruction payload
  change decodeWire t = _ ↔ _
  rw [decodeWire_eq_frame_iff, frameBytes_eq_window, cks_eq_ofNat]
  refine and_congr_right fun _ => and_congr_right fun hlen => ?_
  have hsum : ((frameBody deviceId instruction payload).map BitVec.toNat).sum =
      deviceId.toNat + (payload.length + 2) + instruction.toNat + (payload.map BitVec.toNat).sum := by
    simp only [frameBody, List.map_append, List.sum_append, List.map_cons, List.map_nil, List.sum_cons, List.sum_nil,
      toNat_lengthByte hlen]
    omega
  rw [hsum, Nat.add_comm 2]

/-! ### Decode and encode agree (R80, R92, R93, R97) -/

/-- A header that is not legal matches no row of R97. -/
theorem no_row_of_not_headerLegal {h : Word} (hillegal : headerLegal h = false) : ∀ r ∈ headerRows, h &&& r.1 ≠ r.2 := by
  simpa [headerLegal] using hillegal

/-- An `arg` below 16 is its low four bits. -/
theorem setWidth_typeCode {arg : Byte} (harg : arg.toNat < 16) : (arg.setWidth 4).setWidth 8 = arg := by
  apply BitVec.eq_of_toNat_eq
  simp only [BitVec.toNat_setWidth]
  omega

/-- The FieldCodec headers with the type code written as an `arg` (R93, R94). -/
theorem decodeCommand_fldDecode_arg {arg : Byte} (harg : arg.toNat < 16) (o : Lanes) :
    decodeCommand ⟨header 0x11 arg, o⟩ = decodeFldDecode (arg.setWidth 4) o.bytes :=
  decodeCommand_fldDecode (congrArg (header 0x11) (setWidth_typeCode harg).symm) o

theorem decodeCommand_fldEncode_arg {arg : Byte} (harg : arg.toNat < 16) (o : Lanes) :
    decodeCommand ⟨header 0x12 arg, o⟩ = decodeFldEncode (arg.setWidth 4) o :=
  decodeCommand_fldEncode (congrArg (header 0x12) (setWidth_typeCode harg).symm) o

/-- Settles O1: the command decoder by the header of each row, the receive decoder by its two words, the wire decoder by its
frames. -/
theorem decodeInvertsEncode : Obligations.DecodeInvertsEncode := by
  intro i hwf
  cases i with
  | fldWidth ty => exact congrArg Except.ok (decodeCommand_fldWidth rfl _)
  | fldDecodeU8 _ | fldDecodeI8 _ | fldDecodeU16 _ | fldDecodeI16 _ | fldDecodeU32 _ | fldDecodeI32 _ | fldDecodeF32 _
  | fldDecodeF64 _ | fldDecodeFxp32 _ | fldDecodeFxp16 _ | fldDecodeTy10 _ | fldDecodeTy11 _ | fldDecodeTy12 _
  | fldDecodeTy13 _ | fldDecodeTy14 _ | fldDecodeTy15 _ =>
    exact congrArg Except.ok (decodeCommand_fldDecode_arg (by decide) _)
  | fldEncodeU8 _ | fldEncodeI8 _ | fldEncodeU16 _ | fldEncodeI16 _ | fldEncodeU32 _ | fldEncodeI32 _ | fldEncodeF32 _
  | fldEncodeF64 _ | fldEncodeFxp32 _ | fldEncodeFxp16 _ | fldEncodeTy10 _ | fldEncodeTy11 _ | fldEncodeTy12 _
  | fldEncodeTy13 _ | fldEncodeTy14 _ | fldEncodeTy15 _ =>
    exact congrArg Except.ok (decodeCommand_fldEncode_arg (by decide) _)
  | mapBuild _ | mapFieldAt _ | mapFieldNamed _ | mapAllNames | instrLookup _ | instrName _ | pktChecksum _
  | pktEncode _ _ _ | pktDecode _ | rxOne => exact congrArg Except.ok (decodeCommand_plain rfl rfl)
  | csrRead n => exact congrArg Except.ok (decodeCommand_csrRead rfl _)
  | csrWrite n v => exact congrArg Except.ok (decodeCommand_csrWrite rfl _)
  | illegalCommand h =>
    have hrows := no_row_of_not_headerLegal ((Bool.not_eq_true' _).mp hwf)
    exact congrArg Except.ok (illegalHeadersRaiseIllegalCommand.1 h _ hrows)
  | rxByte b => exact congrArg Except.ok (decodeRx_byteWord b)
  | rxTimeout ignored => exact congrArg Except.ok (decodeRx_timeoutWord ignored)
  | cycleStart => rfl
  | frame deviceId instruction payload =>
    obtain ⟨hid, hlen⟩ := Bool.and_eq_true_iff.mp hwf
    exact decodeWire_eq_frame_iff.2 ⟨of_decide_eq_true hid, of_decide_eq_true hlen, rfl⟩
  | ping => rfl

/-! ### No bit of a port word is dropped (R93, R96) -/

/-- The encoding of the instruction is a command with this header. -/
def HasHeader (i : Instr) (h : Word) : Prop := ∃ o, encode i = .command ⟨h, o⟩

theorem hasHeader_illegalCommand (h : Word) : HasHeader (.illegalCommand h) h := ⟨_, rfl⟩

theorem hasHeader_decodeFldDecode (ty : BitVec 4) (bs : Bytes) :
    HasHeader (decodeFldDecode ty bs) (header 0x11 (ty.setWidth 8)) := by
  obtain ⟨n, hn⟩ := ty
  interval_cases n <;> exact ⟨_, rfl⟩

theorem hasHeader_decodeFldEncode (ty : BitVec 4) (o : Lanes) :
    HasHeader (decodeFldEncode ty o) (header 0x12 (ty.setWidth 8)) := by
  obtain ⟨n, hn⟩ := ty
  interval_cases n <;> exact ⟨_, rfl⟩

theorem eq_of_toNat_eq_ofNat {op : Byte} {k : Nat} (hop : op.toNat = k) : op = BitVec.ofNat 8 k := by
  rw [← hop, BitVec.ofNat_toNat, BitVec.setWidth_eq]

theorem hasHeader_of_decodePlain {op : Byte} {o : Lanes} {i : Instr} (hi : decodePlain op o = some i) :
    HasHeader i (header op 0) := by
  unfold decodePlain at hi
  split at hi <;> cases hi <;> rename_i hop <;> rw [eq_of_toNat_eq_ofNat hop] <;> exact ⟨_, rfl⟩

/-- Where the decoder checks `arg` it falls back to `ILLEGAL_COMMAND`, which keeps the header. -/
theorem hasHeader_ite_illegalCommand {p : Prop} [Decidable p] {i : Instr} {h : Word} (hi : p → HasHeader i h) :
    HasHeader (if p then i else .illegalCommand h) h := by
  split
  · exact hi ‹p›
  · exact hasHeader_illegalCommand h

/-- An `arg` with bits 7:4 zero is a type code (R93). -/
theorem exists_typeCode_of_argHigh {op arg : Byte} (hhigh : (header op arg).extractLsb' 4 4 = 0) :
    ∃ ty : BitVec 4, arg = ty.setWidth 8 := by
  have hjoin : (header op arg).extractLsb' 4 4 ++ (header op arg).extractLsb' 0 4 = (header op arg).extractLsb' 0 8 :=
    BitVec.extractLsb'_append_extractLsb'_eq_extractLsb' rfl
  rw [hhigh, header_arg] at hjoin
  exact ⟨_, hjoin.symm.trans (BitVec.setWidth_eq_append (by decide)).symm⟩

/-- The instruction the command decoder reads from a header is encoded with this header. -/
theorem hasHeader_decodeCommand (op arg : Byte) (o : Lanes) :
    HasHeader (decodeCommand ⟨header op arg, o⟩) (header op arg) := by
  simp only [decodeCommand, header_op, header_arg]
  split
  case h_1 hop =>
    refine hasHeader_ite_illegalCommand fun hhigh => ?_
    obtain ⟨ty, rfl⟩ := exists_typeCode_of_argHigh hhigh
    rw [header_typeCode, eq_of_toNat_eq_ofNat hop]
    exact ⟨_, rfl⟩
  case h_2 hop =>
    refine hasHeader_ite_illegalCommand fun hhigh => ?_
    obtain ⟨ty, rfl⟩ := exists_typeCode_of_argHigh hhigh
    rw [header_typeCode, eq_of_toNat_eq_ofNat hop]
    exact hasHeader_decodeFldDecode ty o.bytes
  case h_3 hop =>
    refine hasHeader_ite_illegalCommand fun hhigh => ?_
    obtain ⟨ty, rfl⟩ := exists_typeCode_of_argHigh hhigh
    rw [header_typeCode, eq_of_toNat_eq_ofNat hop]
    exact hasHeader_decodeFldEncode ty o
  case h_4 hop | h_5 hop =>
    rw [eq_of_toNat_eq_ofNat hop]
    exact ⟨_, rfl⟩
  case h_6 =>
    refine hasHeader_ite_illegalCommand fun harg => ?_
    cases hplain : decodePlain op o with
    | none => exact hasHeader_illegalCommand _
    | some i => exact harg ▸ hasHeader_of_decodePlain hplain

/-- Settles O2: every header is that of its two fields, and every receive word that of a byte or of a timeout. -/
theorem decodingKeepsEveryPortBit : Obligations.DecodingKeepsEveryPortBit := by
  constructor
  · rintro ⟨h, o⟩
    rw [← header_fields h]
    exact hasHeader_decodeCommand _ _ o
  · intro w
    obtain ⟨b, rfl | rfl⟩ := eq_byteWord_or_timeoutWord w
    · rw [decodeRx_byteWord]
      rfl
    · rw [decodeRx_timeoutWord]
      rfl

/-- Settles O4: each word is run through its decoder. -/
theorem sampleWordsDecode : Obligations.SampleWordsDecode := by
  unfold Obligations.SampleWordsDecode
  decide

end Sys2Proof.Machine

/-! The PacketCodec's derived facts (spec/42_packet_codec.md): the laws of the checksum, the invariants of a decoded Frame, the
round trip, and what one corrupted byte does. -/

namespace Sys2Proof.Machine

/-! ### The laws of the checksum (R186) -/

/-- Two strings have the same checksum exactly when their sums agree modulo 256. -/
theorem cks_eq_iff {s t : Bytes} : cks s = cks t ↔ byteSum s % 256 = byteSum t % 256 := by
  rw [← BitVec.toNat_inj, cks_toNat, cks_toNat]
  omega

/-- Settles O28: each law is a fact about sums modulo 256. -/
theorem checksumLaws : Obligations.ChecksumLaws := by
  refine ⟨fun s => ?truncated, fun s => ?total, fun s t hperm => ?permuted, fun a b x y hne => ?changed,
    fun a b c x y => ?cancelled⟩
  case truncated => rw [← byteSum_eq_sum, cks]
  case total =>
    rw [← byteSum_eq_sum, cks_toNat]
    omega
  case permuted => rw [cks_eq_iff, byteSum_eq_sum, byteSum_eq_sum, (hperm.map BitVec.toNat).sum_eq]
  case changed =>
    rw [ne_eq, cks_eq_iff]
    rw [ne_eq, ← BitVec.toNat_inj] at hne
    have hx := x.isLt
    have hy := y.isLt
    simp only [byteSum_append, byteSum_cons, byteSum_nil]
    omega
  case cancelled =>
    rw [cks_eq_iff]
    have hx : (x + 1).toNat = (x.toNat + 1) % 256 := BitVec.toNat_add x 1
    have hy : (y - 1).toNat = (255 + y.toNat) % 256 := BitVec.toNat_sub y 1
    simp only [byteSum_append, byteSum_cons, byteSum_nil, hx, hy]
    omega

/-! ### The Frame of a window (R182, R183) -/

/-- A window `PKT_DECODE` accepts, by its parts, and the Frame it gives. -/
theorem pktDecode_eq_ok_iff {w : Bytes} {f : Frame} : pktDecode w = .ok f ↔
    ∃ (len c : Byte), w = [0xFF, 0xFF, f.deviceId, len, f.instruction] ++ f.payload ++ [c] ∧ f.deviceId ≠ 0xFF ∧
      len.toNat = f.payload.length + 2 ∧
      f.checksumValid = (c == cks ([f.deviceId, len, f.instruction] ++ f.payload)) := by
  constructor
  · intro hdec
    have hlen : 6 ≤ w.length := by
      by_contra hshort
      rw [pktDecode_short (by omega)] at hdec
      cases hdec
    obtain ⟨h0, h1, deviceId, len, instruction, c, payload, rfl⟩ := exists_window_of_six_le hlen
    rw [pktDecode_window] at hdec
    split_ifs at hdec with hbad
    cases hdec
    simp only [not_or, not_not] at hbad
    obtain ⟨rfl, rfl, hid, hcount⟩ := hbad
    exact ⟨len, c, rfl, hid, hcount, rfl⟩
  · rintro ⟨len, c, rfl, hid, hcount, hvalid⟩
    rw [pktDecode_window, if_neg (by simpa [hcount] using hid), ← hvalid]

/-- Settles O31: the length byte counts the payload and two more, and is below 256. -/
theorem decodedFramesMeetInvariants : Obligations.DecodedFramesMeetInvariants := by
  intro w f hdec
  obtain ⟨len, c, rfl, hid, hcount, -⟩ := pktDecode_eq_ok_iff.1 hdec
  have hlen := len.isLt
  exact ⟨by simp [hcount], hid, by omega⟩

/-! ### The round trip (R184) -/

/-- `PKT_DECODE` of a frame gives its parts, with the checksum valid. -/
theorem pktDecode_frameBytes {deviceId : Byte} {payload : Bytes} (hid : deviceId ≠ 0xFF) (hlen : payload.length ≤ 253)
    (instruction : Byte) : pktDecode (frameBytes deviceId instruction payload) = .ok ⟨deviceId, instruction, payload, true⟩ :=
  pktDecode_eq_ok_iff.2 ⟨_, _, frameBytes_eq_window deviceId instruction payload, hid, toNat_lengthByte hlen,
    (beq_self_eq_true _).symm⟩

/-- Settles O32: `PKT_ENCODE` gives the frame, which decodes to its parts. -/
theorem packetRoundTrip : Obligations.PacketRoundTrip := fun m _ opcode _ hid hlen =>
  ⟨_, pktEncode_ok hid (by omega) m opcode, pktDecode_frameBytes hid hlen opcode⟩

/-! ### One corrupted byte (R185) -/

/-- A frame `PKT_ENCODE` has given has a valid device id and a payload its length byte can count. -/
theorem pktEncode_opcode_inv {m : Option MemoryMap} {deviceId opcode : Byte} {payload f : Bytes}
    (henc : pktEncode m deviceId (.opcode opcode) payload = .ok f) :
    deviceId ≠ 0xFF ∧ payload.length ≤ 253 ∧ f = frameBytes deviceId opcode payload := by
  simp only [pktEncode, opcodeOf] at henc
  split_ifs at henc with hid hlen
  cases henc
  exact ⟨hid, by omega, rfl⟩

/-- Whether the checksum of an accepted window is valid shows in the sum of all its bytes: 510 of its header, and of the rest
255 modulo 256. -/
theorem checksumValid_iff_byteSum {w : Bytes} {f : Frame} (hdec : pktDecode w = .ok f) :
    f.checksumValid = true ↔ byteSum w % 256 = 253 := by
  obtain ⟨len, c, rfl, -, -, hvalid⟩ := pktDecode_eq_ok_iff.1 hdec
  have hc := c.isLt
  have hff : (0xFF : Byte).toNat = 255 := rfl
  rw [hvalid, beq_iff_eq, ← BitVec.toNat_inj, cks_toNat]
  simp only [byteSum_append, byteSum_cons, byteSum_nil, hff]
  omega

/-- `PKT_DECODE` accepts a window that meets the precondition of R182. -/
theorem pktDecode_wellformed {w : Bytes} (hlen : 6 ≤ w.length) (h0 : w[0]? = some 0xFF) (h1 : w[1]? = some 0xFF)
    (hid : w[2]? ≠ some 0xFF) (hcount : w[3]?.map BitVec.toNat = some (w.length - 4)) : ∃ f, pktDecode w = .ok f := by
  obtain ⟨b0, b1, deviceId, len, instruction, c, payload, rfl⟩ := exists_window_of_six_le hlen
  rw [pktDecode_window, if_neg (by simp_all)]
  exact ⟨_, rfl⟩

/-- Writing one byte of a string changes its sum by the difference of the two bytes. -/
theorem byteSum_set {bs : Bytes} {k : Nat} {old : Byte} (hold : bs[k]? = some old) (v : Byte) :
    byteSum (bs.set k v) + old.toNat = byteSum bs + v.toNat := by
  induction bs generalizing k with
  | nil => simp at hold
  | cons b bs ih =>
    cases k with
    | zero =>
      obtain rfl : b = old := by simpa using hold
      simp only [List.set_cons_zero, byteSum_cons]
      omega
    | succ k =>
      have htail := ih (k := k) (by simpa using hold)
      simp only [List.set_cons_succ, byteSum_cons]
      omega

/-- One changed byte changes the sum modulo 256. -/
theorem byteSum_set_ne {bs : Bytes} {k : Nat} {v : Byte} (hk : k < bs.length) (hne : bs[k]? ≠ some v) :
    byteSum (bs.set k v) % 256 ≠ byteSum bs % 256 := by
  have hget : bs[k]? = some bs[k] := List.getElem?_eq_getElem hk
  have hsum := byteSum_set hget v
  have hbytes : bs[k].toNat ≠ v.toNat := by
    rw [ne_eq, BitVec.toNat_inj]
    exact fun heq => hne (heq ▸ hget)
  have hold := bs[k].isLt
  have hnew := v.isLt
  omega

/-- Settles O33: a changed header byte, length byte or id that became `FF` breaks the precondition of R182; any other change
keeps it, and spoils the sum of the window. -/
theorem singleByteCorruptionIsSeen : Obligations.SingleByteCorruptionIsSeen := by
  intro m deviceId opcode payload f k v henc hk hne
  obtain ⟨hid, hlen, rfl⟩ := pktEncode_opcode_inv henc
  have hdec := pktDecode_frameBytes hid hlen opcode
  have hsix : 6 ≤ ((frameBytes deviceId opcode payload).set k v).length := by simp
  have h0 : (frameBytes deviceId opcode payload)[0]? = some 0xFF := rfl
  have h1 : (frameBytes deviceId opcode payload)[1]? = some 0xFF := rfl
  have h2 : (frameBytes deviceId opcode payload)[2]? = some deviceId := rfl
  have h3 : (frameBytes deviceId opcode payload)[3]? = some (BitVec.ofNat 8 (2 + payload.length)) := rfl
  have hcount := toNat_lengthByte hlen
  split_ifs with hwhere
  · refine pktDecode_malformed hsix ?_
    rcases hwhere with rfl | rfl | rfl | ⟨rfl, rfl⟩
    · refine .inl ?_
      rw [List.getElem?_set_self hk]
      exact fun heq => hne (h0.trans heq.symm)
    · refine .inr (.inl ?_)
      rw [List.getElem?_set_self hk]
      exact fun heq => hne (h1.trans heq.symm)
    · refine .inr (.inr (.inr ?_))
      rw [List.getElem?_set_self hk, List.length_set, frameBytes_length, Option.map_some, ne_eq, Option.some_inj]
      refine fun heq => hne (h3.trans (congrArg some (BitVec.eq_of_toNat_eq ?_)))
      omega
    · exact .inr (.inr (.inl (List.getElem?_set_self hk)))
  · simp only [not_or, not_and] at hwhere
    obtain ⟨hk0, hk1, hk3, hk2⟩ := hwhere
    have hkeeps : ∃ fr, pktDecode ((frameBytes deviceId opcode payload).set k v) = .ok fr := by
      refine pktDecode_wellformed hsix ?_ ?_ ?_ ?_
      · rw [List.getElem?_set_ne hk0, h0]
      · rw [List.getElem?_set_ne hk1, h1]
      · by_cases hk2' : k = 2
        · subst hk2'
          simpa [List.getElem?_set_self hk] using hk2 rfl
        · rw [List.getElem?_set_ne hk2', h2]
          simpa using hid
      · rw [List.getElem?_set_ne hk3, h3, Option.map_some, hcount]
        simp
    obtain ⟨fr, hfr⟩ := hkeeps
    refine ⟨fr, hfr, ?_⟩
    rw [← Bool.not_eq_true, checksumValid_iff_byteSum hfr, ← (checksumValid_iff_byteSum hdec).1 rfl]
    exact byteSum_set_ne hk hne

end Sys2Proof.Machine

/-! The layout of a MemoryMap and the field lookups in it (spec/41_memory_map.md). -/

namespace Sys2Proof.Machine

/-! ### The layout, field by field (R161, R169) -/

/-- The descriptor of an entry laid out at address `a` (R161). -/
def descriptorAt (a : Nat) (e : FieldEntry) : FieldDescriptor :=
  { name := e.name, address := BitVec.ofNat 16 a, byteSize := BitVec.ofNat 16 (entryWidth e),
    elementCount := e.elementCount, writable := e.writable, primitiveType := e.primitiveType,
    toolTipFormatter := e.toolTipFormatter }

/-- The bytes an entry takes (R161). -/
def entrySize (e : FieldEntry) : Nat := entryWidth e * e.elementCount.toNat

theorem layoutFrom_cons (a : Nat) (e : FieldEntry) (es : List FieldEntry) :
    layoutFrom a (e :: es) = descriptorAt a e :: layoutFrom (a + entrySize e) es := rfl

theorem layoutFrom_length (a : Nat) (es : List FieldEntry) : (layoutFrom a es).length = es.length := by
  induction es generalizing a with
  | nil => rfl
  | cons e es ih => rw [layoutFrom_cons, List.length_cons, ih, List.length_cons]

theorem layoutFrom_map_name (a : Nat) (es : List FieldEntry) :
    (layoutFrom a es).map (·.name) = es.map (·.name) := by
  induction es generalizing a with
  | nil => rfl
  | cons e es ih => rw [layoutFrom_cons, List.map_cons, ih, List.map_cons, descriptorAt]

/-- Field `i` is entry `i` at the end of the entries before it. -/
theorem layoutFrom_getElem? (a : Nat) (es : List FieldEntry) (i : Nat) :
    (layoutFrom a es)[i]? = es[i]?.map (descriptorAt (endAddress a (es.take i))) := by
  induction es generalizing a i with
  | nil => rfl
  | cons e es ih =>
    cases i with
    | zero => rfl
    | succ i =>
      rw [layoutFrom_cons, List.getElem?_cons_succ, ih, List.getElem?_cons_succ, List.take_succ_cons]
      rfl

/-- A list laid out behind another one starts where that one ends. -/
theorem layoutFrom_append (a : Nat) (es fs : List FieldEntry) :
    layoutFrom a (es ++ fs) = layoutFrom a es ++ layoutFrom (endAddress a es) fs := by
  induction es generalizing a with
  | nil => rfl
  | cons e es ih =>
    rw [List.cons_append, layoutFrom_cons, ih, layoutFrom_cons, List.cons_append]
    rfl

/-- Settles O23: the base's layout is the front of the composed one. -/
theorem compositionKeepsBaseFields : Obligations.CompositionKeepsBaseFields := by
  intro base ext rows i f hf
  obtain ⟨hi, -⟩ := List.getElem?_eq_some_iff.1 hf
  have happend : layout (composeVariant base ext rows).fieldList =
      layout base.fieldList ++ layoutFrom (endAddress 0 base.fieldList) ext := layoutFrom_append 0 _ _
  rw [happend, List.getElem?_append_left hi, hf]

/-- An entry that is not empty starts below the end of the list. -/
theorem endAddress_take_lt {es : List FieldEntry} {i : Nat} {e : FieldEntry} (hi : es[i]? = some e)
    (hcount : e.elementCount ≠ 0) (a : Nat) : endAddress a (es.take i) < endAddress a es := by
  induction es generalizing a i with
  | nil => simp at hi
  | cons x xs ih =>
    cases i with
    | zero =>
      obtain rfl : x = e := by simpa using hi
      have hsize := entrySize_pos hcount
      have htail := endAddress_eq_sum (a + entryWidth x * x.elementCount.toNat) xs
      simp only [List.take_zero, endAddress]
      omega
    | succ i => exact ih (by simpa using hi) _

/-- Settles O22: entry `i` lies at the end of the entries before it, which is a 16-bit address. -/
theorem layoutIsContiguous : Obligations.LayoutIsContiguous := by
  intro es size hsize hcount htotal
  obtain rfl : size = entrySize := funext hsize
  have hend (fs : List FieldEntry) : endAddress 0 fs = (fs.map entrySize).sum :=
    (endAddress_eq_sum 0 fs).trans (Nat.zero_add _)
  rw [← hend] at htotal ⊢
  refine ⟨layoutFrom_length 0 es, totalSize_layout hcount htotal, fun i e hi => ?_⟩
  refine ⟨descriptorAt (endAddress 0 (es.take i)) e, ?_, ?_, ?_, rfl, rfl, rfl, rfl, rfl⟩
  · rw [layout, layoutFrom_getElem?, hi, Option.map_some]
  · have hlt := endAddress_take_lt hi (hcount e (List.mem_of_getElem? hi)) 0
    rw [← hend]
    exact Nat.mod_eq_of_lt (by omega)
  · have hwidth := (entryWidth_bounds e).2
    exact Nat.mod_eq_of_lt (by omega)

/-! ### The addresses of a layout rise (R165) -/

/-- No field of a layout from `a` lies below `a`. -/
theorem le_address_of_mem_layoutFrom {a : Nat} {es : List FieldEntry} (hcount : ∀ e ∈ es, e.elementCount ≠ 0)
    (hend : endAddress a es ≤ 65536) {f : FieldDescriptor} (hf : f ∈ layoutFrom a es) : a ≤ f.address.toNat := by
  obtain ⟨i, hi⟩ := List.getElem?_of_mem hf
  rw [layoutFrom_getElem?, Option.map_eq_some_iff] at hi
  obtain ⟨e, he, rfl⟩ := hi
  have hlt := endAddress_take_lt he (hcount e (List.mem_of_getElem? he)) a
  have hstart := endAddress_eq_sum a (es.take i)
  have haddress : (descriptorAt (endAddress a (es.take i)) e).address.toNat = endAddress a (es.take i) :=
    Nat.mod_eq_of_lt (by omega)
  omega

/-- Declaration order is ascending address order. -/
theorem layoutFrom_pairwise {a : Nat} {es : List FieldEntry} (hcount : ∀ e ∈ es, e.elementCount ≠ 0)
    (hend : endAddress a es ≤ 65536) : (layoutFrom a es).Pairwise fun f g => f.address.toNat < g.address.toNat := by
  induction es generalizing a with
  | nil => exact .nil
  | cons e es ih =>
    have hcount' : ∀ x ∈ es, x.elementCount ≠ 0 := fun x hx => hcount x (List.mem_cons_of_mem e hx)
    have hend' : endAddress (a + entrySize e) es ≤ 65536 := hend
    have hsize : 0 < entrySize e := entrySize_pos (hcount e List.mem_cons_self)
    refine .cons (fun g hg => ?_) (ih hcount' hend')
    calc (descriptorAt a e).address.toNat
        ≤ a := Nat.mod_le _ _
      _ < a + entrySize e := Nat.lt_add_of_pos_right hsize
      _ ≤ g.address.toNat := le_address_of_mem_layoutFrom hcount' hend' hg

/-! ### The field lookups (R163 to R165) -/

/-- Looking up a key among members paired with their keys is finding the member by its key. -/
theorem lookup_map_key {α κ : Type} [BEq κ] [LawfulBEq κ] (key : α → κ) (l : List α) (k : κ) :
    (l.map fun x => (key x, x)).lookup k = l.find? fun x => key x == k := by
  induction l with
  | nil => rfl
  | cons x xs ih =>
    rw [List.map_cons, List.lookup_cons, ih, List.find?_cons, BEq.comm]

theorem exec_mapFieldAt {s : State} {m : MemoryMap} (hmap : s.map = some m) {a : BitVec 16}
    {r : Option FieldDescriptor} (hr : m.byAddress.lookup a = r) : exec (.mapFieldAt a) s =
      .next { s with responses := s.responses ++ [⟨0x00, some (.field r)⟩] } := by
  refine exec_of_answer_ok rfl ?_
  rw [withMap_of_some hmap, hr]

theorem exec_mapFieldNamed {s : State} {m : MemoryMap} (hmap : s.map = some m) {n : String}
    {r : Option FieldDescriptor} (hr : m.byName.lookup n = r) : exec (.mapFieldNamed n) s =
      .next { s with responses := s.responses ++ [⟨0x00, some (.field r)⟩] } := by
  refine exec_of_answer_ok rfl ?_
  rw [withMap_of_some hmap, hr]

/-- Settles O24: the fields of a built map have rising addresses and distinct names, so either key finds its one field. -/
theorem fieldLookupsInBuiltMap : Obligations.FieldLookupsInBuiltMap := by
  refine ⟨fun _ => ⟨decodeCommand_plain (op := 0x21) rfl rfl, decodeCommand_plain (op := 0x22) rfl rfl,
    decodeCommand_plain (op := 0x23) rfl rfl⟩, ?built, ?noMap⟩
  case built =>
    intro s name d hwf hmap
    obtain ⟨hnames, hcount, hend, -, -⟩ := (wellFormedDef_iff d).1 hwf
    have hrise := layoutFrom_pairwise hcount hend
    have haddresses : ((layout d.fieldList).map (·.address)).Nodup :=
      List.pairwise_map.2 (hrise.imp fun hlt heq => by rw [heq] at hlt; exact lt_irrefl _ hlt)
    have hfieldNames : (layout d.fieldList).map (·.name) = d.fieldList.map (·.name) := layoutFrom_map_name 0 _
    refine ⟨fun f hf => ⟨?_, ?_⟩, fun a hne => ?_, fun n hne => ?_, ?_, hfieldNames, List.pairwise_map.2 hrise⟩
    · exact exec_mapFieldAt hmap ((lookup_map_key _ _ _).trans (find?_key_of_nodup haddresses hf))
    · exact exec_mapFieldNamed hmap ((lookup_map_key _ _ _).trans (find?_key_of_nodup (hfieldNames ▸ hnames) hf))
    · exact exec_mapFieldAt hmap ((lookup_map_key _ _ _).trans (find?_key_of_forall_ne hne))
    · refine exec_mapFieldNamed hmap ((lookup_map_key _ _ _).trans (find?_key_of_forall_ne fun f hf => ?_))
      have hmem : f.name ∈ d.fieldList.map (·.name) := hfieldNames ▸ List.mem_map_of_mem hf
      obtain ⟨e, he, hname⟩ := List.mem_map.1 hmem
      exact hname ▸ hne e he
    · rw [← hfieldNames]
      exact exec_of_answer_ok rfl (withMap_of_some hmap _)
  case noMap =>
    intro s a n hmap i hi
    refine lookupsWithoutMapRaiseNoActiveMap s a n 0 hmap i ?_
    exact List.mem_append_left [Instr.instrLookup n, .instrName 0] hi

end Sys2Proof.Machine

/-! The agents' turns (spec/20_memory.md R55, R60; spec/70_reset_and_hazards.md): whose item a step takes, who writes what, and
what passes from the wire to the transport. -/

namespace Sys2Proof.Machine

/-! ### A step by whose turn it is (R55, R60) -/

theorem step_of_fetch_none {s : State} (hfetch : fetch s = none) : step s = .next s.idle := by
  rw [step, hfetch]

theorem step_of_fetch_ok {s t : State} {e : Encoded} {i : Instr} (hfetch : fetch s = some (e, t))
    (hdec : decode e = .ok i) : step s = exec i t := by
  simp only [step, hfetch, hdec]

theorem step_of_fetch_error {s t : State} {e : Encoded} {r : DecodeError} (hfetch : fetch s = some (e, t))
    (hdec : decode e = .error r) : step s = .next (t.rejected e) := by
  simp only [step, hfetch, hdec]

theorem fetch_command {s : State} {ts : List Turn} {c : Command} {cs : List Command} (hturns : s.turns = .command :: ts)
    (hqueue : s.commands = c :: cs) : fetch s = some (.command c, { s with turns := ts, commands := cs }) := by
  simp only [fetch, hturns, hqueue]

theorem fetch_receive {s : State} {ts : List Turn} {w : BitVec 9} {ws : List (BitVec 9)} (hturns : s.turns = .receive :: ts)
    (hqueue : s.received = w :: ws) : fetch s = some (.rx w, { s with turns := ts, received := ws }) := by
  simp only [fetch, hturns, hqueue]

theorem fetch_receive_nil {s : State} {ts : List Turn} (hturns : s.turns = .receive :: ts) (hqueue : s.received = []) :
    fetch s = none := by
  simp only [fetch, hturns, hqueue]

theorem fetch_cycleStart {s : State} {ts : List Turn} (hturns : s.turns = .cycleStart :: ts) :
    fetch s = some (.internal, { s with turns := ts }) := by
  simp only [fetch, hturns]

theorem fetch_wire {s : State} {ts : List Turn} {t : Bytes} {rest : List Bytes} (hturns : s.turns = .wire :: ts)
    (hqueue : s.wire = t :: rest) : fetch s = some (.wire t, { s with turns := ts, wire := rest }) := by
  simp only [fetch, hturns, hqueue]

theorem fetch_reset {s : State} {ts : List Turn} (hturns : s.turns = .reset :: ts) : fetch s = none := by
  simp only [fetch, hturns]

theorem fetch_nil {s : State} (hturns : s.turns = []) : fetch s = none := by
  simp only [fetch, hturns]

/-- A turn other than reset passes when its agent has no item. -/
theorem idle_receive {s : State} {ts : List Turn} (hturns : s.turns = .receive :: ts) :
    s.idle = { s with turns := ts } := by
  simp only [State.idle, hturns]

theorem idle_reset {s : State} {ts : List Turn} (hturns : s.turns = .reset :: ts) :
    s.idle = { s.resetBlock with turns := ts } := by
  simp only [State.idle, hturns]

theorem idle_nil {s : State} (hturns : s.turns = []) : s.idle = s := by
  simp only [State.idle, hturns]

/-- `idle` passes a turn, or resets the block. -/
theorem idle_cases (s : State) : (∃ ts, s.idle = { s with turns := ts }) ∨
    ∃ ts, s.idle = { s.resetBlock with turns := ts } := by
  unfold State.idle
  split
  · exact .inr ⟨_, rfl⟩
  · exact .inl ⟨_, rfl⟩
  · exact .inl ⟨s.turns, rfl⟩

/-- Settles O5: each clause is the agent's item, and what its decoder reads from it. -/
theorem stepRunsDecodedInstruction : Obligations.StepRunsDecodedInstruction :=
  ⟨fun _ _ _ _ hturns hqueue => step_of_fetch_ok (fetch_command hturns hqueue) rfl,
    fun _ _ _ _ hturns hqueue => step_of_fetch_ok (fetch_receive hturns hqueue) rfl,
    fun _ _ hturns => step_of_fetch_ok (fetch_cycleStart hturns) rfl,
    fun _ _ _ _ _ hturns hqueue hdec => step_of_fetch_ok (fetch_wire hturns hqueue) hdec,
    fun _ _ _ _ _ hturns hqueue hdec => step_of_fetch_error (fetch_wire hturns hqueue) hdec⟩

/-- Settles O53: the reset turn has no item, and `resetBlock` keeps only what is not the block's. -/
theorem resetInputClearsTheBlock : Obligations.ResetInputClearsTheBlock := by
  intro s ts hturns
  rw [step_of_fetch_none (fetch_reset hturns), idle_reset hturns]
  rfl

/-! ### Outside a cycle (R200, R215, R285) -/

theorem exec_rxByte_of_inactive {s : State} (hactive : s.active = false) (b : Byte) :
    exec (.rxByte b) s = .next (s.untake (byteWord b)) := if_neg (by simp [hactive])

theorem exec_rxTimeout_of_inactive {s : State} (hactive : s.active = false) (ignored : Byte) :
    exec (.rxTimeout ignored) s = .next (s.untake (timeoutWord ignored)) := if_neg (by simp [hactive])

/-- Whatever the word, the receive event it carries stays with the transport. -/
theorem exec_decodeRx_of_inactive {s : State} (hactive : s.active = false) (w : BitVec 9) :
    exec (decodeRx w) s = .next (s.untake w) := by
  obtain ⟨b, rfl | rfl⟩ := eq_byteWord_or_timeoutWord w
  · rw [decodeRx_byteWord, exec_rxByte_of_inactive hactive]
  · rw [decodeRx_timeoutWord, exec_rxTimeout_of_inactive hactive]

/-- The transport's turn puts back what it has taken. -/
theorem step_receive_of_inactive {s : State} {ts : List Turn} (hactive : s.active = false)
    (hturns : s.turns = .receive :: ts) : step s = .next { s with turns := ts } := by
  cases hqueue : s.received with
  | nil => rw [step_of_fetch_none (fetch_receive_nil hturns hqueue), idle_receive hturns, ← hqueue]
  | cons w ws =>
    have hactive' : ({ s with turns := ts, received := ws } : State).active = false := hactive
    exact (step_of_fetch_ok (fetch_receive hturns hqueue) rfl).trans (exec_decodeRx_of_inactive hactive' w)

/-- Settles O37: a receive event the framer does not take goes back to the head of the queue. -/
theorem nothingIsTakenOutsideCycle : Obligations.NothingIsTakenOutsideCycle :=
  ⟨fun _ _ hactive hturns => step_receive_of_inactive hactive hturns,
    fun _ b hactive => ⟨exec_rxByte_of_inactive hactive b, exec_rxTimeout_of_inactive hactive b⟩⟩

/-- `CYCLE_START` inside a cycle, or asked for by neither flag, is not enabled. -/
theorem exec_cycleStart_of_not_enabled {s : State} (hdisabled : s.active = true ∨ (s.oneshot = false ∧ s.run = false)) :
    exec .cycleStart s = .next s := by
  refine congrArg Host.Outcome.next (if_neg ?_)
  rcases hdisabled with hactive | ⟨honeshot, hrun⟩
  · simp [hactive]
  · simp [honeshot, hrun]

/-- Settles O55: outside a cycle the transport's turn takes nothing, and a framer's step that is not enabled passes. -/
theorem stoppedFramerStaysStopped : Obligations.StoppedFramerStaysStopped := by
  refine ⟨fun s t ts hactive honeshot hrun hturns hturn => ?_, fun s => exec_cycleStart_of_not_enabled, fun s hturns => ?_⟩
  · rcases hturn with rfl | rfl
    · exact step_receive_of_inactive hactive hturns
    · rw [step_of_fetch_ok (fetch_cycleStart hturns) rfl]
      exact exec_cycleStart_of_not_enabled (.inr ⟨honeshot, hrun⟩)
  · rw [step_of_fetch_none (fetch_nil hturns), idle_nil hturns]

/-! ### Who writes what (R23 to R27, R265) -/

/-- Settles O49: of the ways an instruction can answer, only `MAP_BUILD`, `RX_ONE`, `CSR_WRITE`, a consumed receive event and the
start of a cycle write one of these fields. -/
theorem eachFlagHasItsWriters : Obligations.EachFlagHasItsWriters := by
  intro i s s' hexec
  rcases exec_cases hexec with ⟨r, rfl⟩ | ⟨n, m, rfl, -, rfl⟩ | ⟨rfl, rfl⟩ | ⟨v, rfl, rfl⟩ | ⟨b, rfl, -, hconsume⟩ |
    ⟨x, rfl, -, hconsume⟩ | ⟨w, -, rfl, -⟩ | ⟨rfl, -, rfl⟩ | ⟨rfl, rfl⟩ | ⟨bs, rfl, -⟩
  case inr.inr.inr.inr.inl | inr.inr.inr.inr.inr.inl =>
    obtain ⟨t, -, rfl⟩ := consume_next hconsume
    simp
  all_goals simp

/-- Settles O50: only a consumed receive event emits, and what it emits is at most one event. -/
theorem eventsOnlyAppended : Obligations.EventsOnlyAppended := by
  intro i s s' hexec
  have hconsumed {e : RxEvent} (hi : (∃ b, i = .rxByte b) ∨ ∃ x, i = .rxTimeout x) (hconsume : consume e s = .next s') :
      s'.events = s.events ∨ ∃ e, s'.events = s.events ++ [e] ∧ ((∃ b, i = .rxByte b) ∨ ∃ x, i = .rxTimeout x) := by
    obtain ⟨⟨buf, event, ends⟩, -, rfl⟩ := consume_next hconsume
    cases event with
    | none => exact .inl (by simp)
    | some ev => exact .inr ⟨ev, by simp, hi⟩
  rcases exec_cases hexec with ⟨r, rfl⟩ | ⟨n, m, -, -, rfl⟩ | ⟨-, rfl⟩ | ⟨v, -, rfl⟩ | ⟨b, hi, -, hconsume⟩ |
    ⟨x, hi, -, hconsume⟩ | ⟨w, -, rfl, -⟩ | ⟨-, -, rfl⟩ | ⟨-, rfl⟩ | ⟨bs, rfl, -⟩
  case inr.inr.inr.inr.inl => exact hconsumed (.inl ⟨b, hi⟩) hconsume
  case inr.inr.inr.inr.inr.inl => exact hconsumed (.inr ⟨x, hi⟩) hconsume
  all_goals exact .inl (by simp)

/-! ### From the wire to the transport (R51, R215) -/

/-- Delivering bytes writes nothing but what the transport holds and has counted. -/
theorem deliver_eq (s : State) (bs : Bytes) : s.deliver bs =
    { s with received := (s.deliver bs).received, arrivals := (s.deliver bs).arrivals } := by
  induction bs generalizing s with
  | nil => rfl
  | cons b bs ih =>
    rw [deliver_cons, ih]
    rfl

/-- In a cycle every byte is held, in wire order. -/
theorem deliver_of_active {s : State} (hactive : s.active = true) (bs : Bytes) : s.deliver bs =
    { s with received := s.received ++ bs.map byteWord, arrivals := s.arrivals + bs.length } := by
  have hall : (bs.zipIdx s.arrivals).filter (fun p => s.active || Config.rxBacklog p.2) = bs.zipIdx s.arrivals :=
    List.filter_eq_self.2 fun p _ => by simp [hactive]
  have hwords : (bs.zipIdx s.arrivals).map (fun p => byteWord p.1) = bs.map byteWord := by
    rw [← Function.comp_def byteWord, ← List.map_map, List.zipIdx_map_fst]
  rw [deliver_eq, deliver_received, deliver_arrivals, hall, hwords]

/-- Outside a cycle the bytes `RX_BACKLOG` keeps are held, in wire order. -/
theorem deliver_of_inactive {s : State} (hactive : s.active = false) (bs : Bytes) : s.deliver bs =
    { s with
      received := s.received ++ ((bs.zipIdx s.arrivals).filter fun p => Config.rxBacklog p.2).map fun p => byteWord p.1
      arrivals := s.arrivals + bs.length } := by
  rw [deliver_eq, deliver_received, deliver_arrivals]
  simp only [hactive, Bool.false_or]

theorem exec_frame (deviceId instruction : Byte) (payload : Bytes) (s : State) :
    exec (.frame deviceId instruction payload) s = .next (s.deliver (frameBytes deviceId instruction payload)) := rfl

theorem exec_ping (s : State) : exec .ping s = .next (s.deliver [0x01]) := rfl

/-- Settles O51: both instructions deliver their bytes. -/
theorem wireBytesReachTransport : Obligations.WireBytesReachTransport := by
  refine ⟨fun s deviceId opcode payload hactive => ?_, fun s hactive => ?_, fun s deviceId opcode payload hactive => ?_,
    fun s hactive => ?_⟩
  · rw [exec_frame, deliver_of_active hactive, frameBytes_length]
    rfl
  · rw [exec_ping, deliver_of_active hactive]
    rfl
  · rw [exec_frame, deliver_of_inactive hactive, frameBytes_length]
    rfl
  · rw [exec_ping, deliver_of_inactive hactive]
    cases hkeep : Config.rxBacklog s.arrivals with
    | true => simp [hkeep, byteWord]
    | false => simp [hkeep]

end Sys2Proof.Machine

/-! The framer's invariants (spec/43_frame_reader.md): what one byte does to a buffer in normal form, its bounds, and what every
step keeps. -/

namespace Sys2Proof.Machine

/-! ### Normal form (R204) -/

/-- A buffer in normal form is one of the five states of R22, with a length byte, once there is one, that is at least 2 and not
yet reached. -/
theorem normalForm_iff {buf : Bytes} : normalForm buf = true ↔
    buf = [] ∨ buf = [0xFF] ∨ buf = [0xFF, 0xFF] ∨ (∃ id, id ≠ 0xFF ∧ buf = [0xFF, 0xFF, id]) ∨
      ∃ id len rest, id ≠ 0xFF ∧ 2 ≤ len.toNat ∧ rest.length < len.toNat ∧ buf = 0xFF :: 0xFF :: id :: len :: rest := by
  match buf with
  | [] => simp [normalForm]
  | [b0] => simp [normalForm]
  | [b0, b1] => simp [normalForm]
  | [b0, b1, b2] =>
    simp only [normalForm, Bool.and_eq_true, beq_iff_eq, bne_iff_ne]
    constructor
    · rintro ⟨⟨rfl, rfl⟩, hid⟩
      exact .inr (.inr (.inr (.inl ⟨b2, hid, rfl⟩)))
    · rintro (h | h | h | ⟨id, hid, h⟩ | ⟨id, len, rest, -, -, -, h⟩) <;> cases h
      exact ⟨⟨rfl, rfl⟩, hid⟩
  | b0 :: b1 :: b2 :: b3 :: rest =>
    simp only [normalForm, Bool.and_eq_true, beq_iff_eq, bne_iff_ne, decide_eq_true_eq]
    constructor
    · rintro ⟨⟨⟨⟨rfl, rfl⟩, hid⟩, hlen⟩, hrest⟩
      exact .inr (.inr (.inr (.inr ⟨b2, b3, rest, hid, hlen, hrest, rfl⟩)))
    · rintro (h | h | h | ⟨id, hid, h⟩ | ⟨id, len, rest, hid, hlen, hrest, h⟩) <;> cases h
      exact ⟨⟨⟨⟨rfl, rfl⟩, hid⟩, hlen⟩, hrest⟩

theorem normalForm_device {id : Byte} (hid : id ≠ 0xFF) : normalForm [0xFF, 0xFF, id] = true :=
  normalForm_iff.2 (.inr (.inr (.inr (.inl ⟨id, hid, rfl⟩))))

theorem normalForm_body {id len : Byte} {rest : Bytes} (hid : id ≠ 0xFF) (hlen : 2 ≤ len.toNat)
    (hrest : rest.length < len.toNat) : normalForm (0xFF :: 0xFF :: id :: len :: rest) = true :=
  normalForm_iff.2 (.inr (.inr (.inr (.inr ⟨id, len, rest, hid, hlen, hrest, rfl⟩))))

/-- No resynchronization rule applies behind a length byte of at least 2 (R202). -/
theorem resyncs_body {id len : Byte} (hlen : 2 ≤ len.toNat) (rest : Bytes) :
    resyncs (0xFF :: 0xFF :: id :: len :: rest) = false :=
  decide_eq_false (by omega)

/-- No resynchronization rule applies to a buffer in normal form. -/
theorem resyncs_of_normalForm {buf : Bytes} (hnormal : normalForm buf = true) : resyncs buf = false := by
  rcases normalForm_iff.1 hnormal with rfl | rfl | rfl | ⟨id, hid, rfl⟩ | ⟨id, len, rest, -, hlen, -, rfl⟩
  · rfl
  · rfl
  · rfl
  · simpa [resyncs] using hid
  · exact resyncs_body hlen rest

/-- A buffer in normal form is not a whole frame (R204). -/
theorem complete_of_normalForm {buf : Bytes} (hnormal : normalForm buf = true) : complete buf = false := by
  rcases normalForm_iff.1 hnormal with rfl | rfl | rfl | ⟨id, hid, rfl⟩ | ⟨id, len, rest, -, -, hrest, rfl⟩
  · rfl
  · rfl
  · rfl
  · rfl
  · simpa [complete] using hrest.ne

/-- What has come in of a buffer in normal form was in normal form. -/
theorem normalForm_of_append {buf more : Bytes} (hnormal : normalForm (buf ++ more) = true) : normalForm buf = true := by
  match buf with
  | [] => rfl
  | [b0] =>
    rcases normalForm_iff.1 hnormal with h | h | h | ⟨id, -, h⟩ | ⟨id, len, rest, -, -, -, h⟩ <;> cases h <;> rfl
  | [b0, b1] =>
    rcases normalForm_iff.1 hnormal with h | h | h | ⟨id, -, h⟩ | ⟨id, len, rest, -, -, -, h⟩ <;> cases h <;> rfl
  | [b0, b1, b2] =>
    rcases normalForm_iff.1 hnormal with h | h | h | ⟨id, hid, h⟩ | ⟨id, len, rest, hid, -, -, h⟩ <;> cases h <;>
      exact normalForm_device hid
  | b0 :: b1 :: b2 :: b3 :: rest =>
    rcases normalForm_iff.1 hnormal with h | h | h | ⟨id, -, h⟩ | ⟨id, len, tail, hid, hlen, htail, h⟩ <;> cases h
    exact normalForm_body hid hlen (by simp at htail; omega)

/-! ### One byte into a buffer in normal form (R201, R202, R212) -/

theorem resyncs_cons_of_ne {b : Byte} (hb : b ≠ 0xFF) (rest : Bytes) : resyncs (b :: rest) = true := by
  simp only [resyncs, bne_iff_ne.2 hb, Bool.true_or]

theorem resyncs_header_of_ne {b : Byte} (hb : b ≠ 0xFF) (rest : Bytes) : resyncs (0xFF :: b :: rest) = true := by
  simp only [resyncs, bne_iff_ne.2 hb, Bool.true_or, Bool.or_true]

theorem normalise_of_resyncs {b : Byte} {rest : Bytes} (hresyncs : resyncs (b :: rest) = true) :
    normalise (b :: rest) = ((normalise rest).1, (normalise rest).2 + 1) := by
  rw [normalise, if_pos hresyncs]

theorem normalise_first_of_ne {b : Byte} (hb : b ≠ 0xFF) : normalise [b] = ([], 1) :=
  normalise_of_resyncs (resyncs_cons_of_ne hb [])

theorem normalise_second_of_ne {b : Byte} (hb : b ≠ 0xFF) : normalise [0xFF, b] = ([], 2) := by
  rw [normalise_of_resyncs (resyncs_header_of_ne hb []), normalise_first_of_ne hb]

theorem normalise_device_ff : normalise [0xFF, 0xFF, 0xFF] = ([0xFF, 0xFF], 1) := rfl

theorem normalise_length_of_lt {id len : Byte} (hid : id ≠ 0xFF) (hlen : len.toNat < 2) :
    normalise [0xFF, 0xFF, id, len] = ([], 4) := by
  have hne : len ≠ 0xFF := by
    rintro rfl
    exact absurd hlen (by decide)
  have hresyncs : resyncs [0xFF, 0xFF, id, len] = true := decide_eq_true hlen
  rw [normalise_of_resyncs hresyncs, normalise_of_resyncs (resyncs_header_of_ne hid _),
    normalise_of_resyncs (resyncs_cons_of_ne hid _), normalise_first_of_ne hne]

/-- The buffer is a whole frame but for its checksum byte. -/
def AwaitsChecksum (buf : Bytes) (id len op : Byte) (payload : Bytes) : Prop :=
  buf = [0xFF, 0xFF, id, len, op] ++ payload ∧ id ≠ 0xFF ∧ len.toNat = payload.length + 2

theorem AwaitsChecksum.normalForm {buf : Bytes} {id len op : Byte} {payload : Bytes}
    (hawaits : AwaitsChecksum buf id len op payload) : normalForm buf = true := by
  obtain ⟨rfl, hid, hlen⟩ := hawaits
  exact normalForm_body hid (by omega) (by simp [hlen])

/-- The checksum byte completes the frame, whatever its value. -/
theorem AwaitsChecksum.complete {buf : Bytes} {id len op : Byte} {payload : Bytes}
    (hawaits : AwaitsChecksum buf id len op payload) (b : Byte) :
    normalise (buf ++ [b]) = (buf ++ [b], 0) ∧ complete (buf ++ [b]) = true := by
  obtain ⟨rfl, -, hlen⟩ := hawaits
  refine ⟨normalise_of_not_resyncs (resyncs_body (by omega) _), ?_⟩
  simp [Machine.complete, hlen]

theorem AwaitsChecksum.pktDecode {buf : Bytes} {id len op : Byte} {payload : Bytes}
    (hawaits : AwaitsChecksum buf id len op payload) (b : Byte) :
    pktDecode (buf ++ [b]) = .ok ⟨id, op, payload, decide (b = cks ([id, len, op] ++ payload))⟩ := by
  obtain ⟨rfl, hid, hlen⟩ := hawaits
  exact pktDecode_eq_ok_iff.2 ⟨len, b, rfl, hid, hlen, (beq_eq_decide _ _).symm⟩

/-- A byte into a buffer in normal form: it is the next byte of a frame, or the frame's checksum, or resynchronization leaves at
most a header. -/
theorem normalise_push {buf : Bytes} (hnormal : normalForm buf = true) (b : Byte) :
    normalForm (buf ++ [b]) = true ∨ (∃ id len op payload, AwaitsChecksum buf id len op payload) ∨
      ∃ left dropped, (left = [] ∨ left = [0xFF, 0xFF]) ∧ dropped < 4 ∧ normalise (buf ++ [b]) = (left, dropped + 1) := by
  rcases normalForm_iff.1 hnormal with rfl | rfl | rfl | ⟨id, hid, rfl⟩ | ⟨id, len, rest, hid, hlen, hrest, rfl⟩
  · by_cases hb : b = 0xFF
    · exact .inl (by rw [hb]; rfl)
    · exact .inr (.inr ⟨[], 0, .inl rfl, by omega, normalise_first_of_ne hb⟩)
  · by_cases hb : b = 0xFF
    · exact .inl (by rw [hb]; rfl)
    · exact .inr (.inr ⟨[], 1, .inl rfl, by omega, normalise_second_of_ne hb⟩)
  · by_cases hb : b = 0xFF
    · exact .inr (.inr ⟨[0xFF, 0xFF], 0, .inr rfl, by omega, by rw [hb]; exact normalise_device_ff⟩)
    · exact .inl (normalForm_device hb)
  · by_cases hb : 2 ≤ b.toNat
    · exact .inl (normalForm_body hid hb (by simp; omega))
    · exact .inr (.inr ⟨[], 3, .inl rfl, by omega, normalise_length_of_lt hid (by omega)⟩)
  · by_cases hfull : len.toNat = rest.length + 1
    · cases rest with
      | nil => simp at hfull; omega
      | cons op payload => exact .inr (.inl ⟨id, len, op, payload, rfl, hid, hfull⟩)
    · exact .inl (normalForm_body hid hlen (by simp; omega))

/-- Settles O38: a byte that drops others leaves at most a header, which is no frame; a byte that completes a frame drops none,
and the frame is a window of at least 6 bytes. -/
theorem bufferBounds : Obligations.BufferBounds := by
  intro buf b hnormal
  have hlen := length_le_of_normalForm hnormal
  refine ⟨hlen, by simp; omega, ?_⟩
  rcases normalise_push hnormal b with hpush | ⟨id, len, op, payload, hawaits⟩ | ⟨left, dropped, hleft, -, hdrop⟩
  · rw [normalise_of_not_resyncs (resyncs_of_normalForm hpush), complete_of_normalForm hpush]
    simp
  · obtain ⟨hnormalise, -⟩ := hawaits.complete b
    obtain ⟨rfl, -, -⟩ := hawaits
    rw [hnormalise]
    simp
  · rw [hdrop]
    rcases hleft with rfl | rfl <;> simp [complete]

/-! ### One consumed event (R201, R203) -/

theorem take_of_normalForm_push {buf : Bytes} {b : Byte} (hpush : normalForm (buf ++ [b]) = true) :
    take buf (.byte b) = some ⟨buf ++ [b], none, false⟩ := by
  simp [take, normalise_of_not_resyncs (resyncs_of_normalForm hpush), complete_of_normalForm hpush]

theorem take_of_awaitsChecksum {buf : Bytes} {id len op : Byte} {payload : Bytes}
    (hawaits : AwaitsChecksum buf id len op payload) (b : Byte) : take buf (.byte b) = some
      ⟨[], some (.frameOut (buf ++ [b]) ⟨id, op, payload, decide (b = cks ([id, len, op] ++ payload))⟩), true⟩ := by
  obtain ⟨hnormalise, hcomplete⟩ := hawaits.complete b
  simp [take, hnormalise, hcomplete, hawaits.pktDecode b]

theorem take_of_dropped {buf left : Bytes} {b : Byte} {dropped : Nat}
    (hdrop : normalise (buf ++ [b]) = (left, dropped + 1)) (hleft : left = [] ∨ left = [0xFF, 0xFF]) :
    take buf (.byte b) = some ⟨left, some (.diag .framingError (dropped + 1)), false⟩ := by
  have hcomplete : complete left = false := by rcases hleft with rfl | rfl <;> rfl
  simp [take, hdrop, hcomplete]

/-- What a consumed event leaves of a buffer in normal form: normal form again, nothing when the cycle ends, and an event with
the contents R264 gives it. -/
structure TakenOk (t : Taken) : Prop where
  normal : normalForm t.buf = true
  ended : t.ends = true → t.buf = []
  emitted : ∀ ev ∈ t.event, EventOk ev

/-- From normal form every event is consumed (R214), and keeps the framer in order (R205, R264). -/
theorem take_of_normalForm {buf : Bytes} (hnormal : normalForm buf = true) (e : RxEvent) :
    ∃ t, take buf e = some t ∧ TakenOk t := by
  have hlen := length_le_of_normalForm hnormal
  cases e with
  | timeout => exact ⟨_, take_timeout buf, rfl, fun _ => rfl, by simpa [EventOk] using hlen⟩
  | byte b =>
    rcases normalise_push hnormal b with hpush | ⟨id, len, op, payload, hawaits⟩ | ⟨left, dropped, hleft, hdropped, hdrop⟩
    · exact ⟨_, take_of_normalForm_push hpush, hpush, by simp, by simp⟩
    · refine ⟨_, take_of_awaitsChecksum hawaits b, rfl, fun _ => rfl, ?_⟩
      have hsix : 6 ≤ (buf ++ [b]).length := by
        obtain ⟨rfl, -, -⟩ := hawaits
        simp
      have hmax : (buf ++ [b]).length ≤ 259 := by simp; omega
      rintro ev ⟨⟩
      exact ⟨hsix, hmax, hawaits.pktDecode b⟩
    · refine ⟨_, take_of_dropped hdrop hleft, by rcases hleft with rfl | rfl <;> rfl, by simp, ?_⟩
      rintro ev ⟨⟩
      exact ⟨rfl, by omega, by omega⟩

/-! ### No operation stops the block (R214, R270) -/

theorem consume_of_normalForm {s : State} (hnormal : normalForm s.buf = true) (e : RxEvent) :
    ∃ s', consume e s = .next s' := by
  obtain ⟨t, ht, -⟩ := take_of_normalForm hnormal e
  exact ⟨_, consume_of_take ht⟩

/-- Every instruction answers a next state when the buffer is in normal form. -/
theorem exec_of_normalForm (i : Instr) {s : State} (hnormal : normalForm s.buf = true) : ∃ s', exec i s = .next s' := by
  cases i with
  | rxByte b =>
    cases hactive : s.active with
    | true =>
      obtain ⟨s', hconsume⟩ := consume_of_normalForm hnormal (.byte b)
      exact ⟨s', (if_pos hactive).trans hconsume⟩
    | false => exact ⟨_, exec_rxByte_of_inactive hactive b⟩
  | rxTimeout x =>
    cases hactive : s.active with
    | true =>
      obtain ⟨s', hconsume⟩ := consume_of_normalForm hnormal .timeout
      exact ⟨s', (exec_rxTimeout_of_active hactive x).trans hconsume⟩
    | false => exact ⟨_, exec_rxTimeout_of_inactive hactive x⟩
  | _ => exact ⟨_, rfl⟩

/-- The parts of the state the machine's invariant reads are the same. -/
structure SameMachine (s t : State) : Prop where
  buf : t.buf = s.buf
  active : t.active = s.active
  map : t.map = s.map
  variants : t.variants = s.variants
  events : t.events = s.events

/-- Taking an item from a queue touches nothing of the block. -/
theorem sameMachine_of_fetch {s t : State} {e : Encoded} (hfetch : fetch s = some (e, t)) : SameMachine s t := by
  rcases fetch_cases hfetch with ⟨_, _, _, -, -, -, rfl⟩ | ⟨_, _, _, -, -, -, rfl⟩ | ⟨_, -, -, rfl⟩ |
    ⟨_, _, _, -, -, -, rfl⟩ <;> exact ⟨rfl, rfl, rfl, rfl, rfl⟩

/-- Settles O42: of the instructions only a consumed byte has a fault, and from normal form none is refused. -/
theorem stepAlwaysAnswersNext : Obligations.StepAlwaysAnswersNext := by
  rintro s ⟨hnormal, -⟩
  cases hfetch : fetch s with
  | none => exact ⟨_, step_of_fetch_none hfetch⟩
  | some p =>
    obtain ⟨e, t⟩ := p
    cases hdec : decode e with
    | error r => exact ⟨_, step_of_fetch_error hfetch hdec⟩
    | ok i =>
      rw [step_of_fetch_ok hfetch hdec]
      exact exec_of_normalForm i ((sameMachine_of_fetch hfetch).buf ▸ hnormal)

/-! ### The machine's invariant (R27, R160, R205, R264) -/

/-- The invariant reads five fields only. -/
theorem MachineOk.congr {s t : State} (hok : MachineOk s) (hsame : SameMachine s t) : MachineOk t := by
  obtain ⟨hbuf, hactive, hmap, hvariants, hevents⟩ := hsame
  simpa only [MachineOk, FramerOk, MapOk, hbuf, hactive, hmap, hvariants, hevents] using hok

/-- What `MAP_BUILD` builds is the record of a well-formed definition, under its name (R160, R170). -/
theorem buildMap_eq_ok {vs : Variants} {n : String} {m : MemoryMap} (hbuild : buildMap vs n = .ok m) :
    ∃ d, vs.lookup n = some d ∧ wellFormedDef d = true ∧ m = mapOf n d := by
  unfold buildMap at hbuild
  split at hbuild
  · cases hbuild
  · rename_i d hd
    split_ifs at hbuild with hwf
    cases hbuild
    exact ⟨d, hd, hwf, rfl⟩

theorem MachineOk.mapBuild {s : State} (hok : MachineOk s) {n : String} {m : MemoryMap}
    (hbuild : buildMap s.variants n = .ok m) : MachineOk ((s.setMap m).finish .unit) := by
  obtain ⟨hframer, -, hevents⟩ := hok
  obtain ⟨d, hd, hwf, rfl⟩ := buildMap_eq_ok hbuild
  refine ⟨hframer, ?_, hevents⟩
  rintro _ ⟨⟩
  exact ⟨d, hd, hwf, rfl⟩

theorem MachineOk.consume {s s' : State} (hok : MachineOk s) {e : RxEvent} (hconsume : consume e s = .next s') :
    MachineOk s' := by
  obtain ⟨⟨hnormal, -⟩, hmap, hevents⟩ := hok
  obtain ⟨t, htake, rfl⟩ := consume_next hconsume
  obtain ⟨_, htake', htaken⟩ := take_of_normalForm hnormal e
  obtain rfl := Option.some_inj.1 (htake.symm.trans htake')
  refine ⟨⟨by simpa using htaken.normal, ?_⟩, ?_, ?_⟩
  · simpa using htaken.ended
  · simpa [MapOk] using hmap
  · intro ev hev
    rw [State.emitSome_events, List.mem_append, Option.mem_toList] at hev
    exact hev.elim (hevents ev) (htaken.emitted ev)

/-- A cycle starts with the buffer that stayed empty. -/
theorem MachineOk.cycleStart {s : State} (hok : MachineOk s) : MachineOk ((s.setOneshot false).setActive true) := by
  obtain ⟨⟨hnormal, -⟩, hmap, hevents⟩ := hok
  exact ⟨⟨hnormal, fun hactive => nomatch hactive⟩, hmap, hevents⟩

/-- Every instruction keeps the invariant. -/
theorem MachineOk.exec {i : Instr} {s s' : State} (hok : MachineOk s) (hexec : exec i s = .next s') : MachineOk s' := by
  rcases exec_cases hexec with ⟨r, rfl⟩ | ⟨n, m, -, hbuild, rfl⟩ | ⟨-, rfl⟩ | ⟨v, -, rfl⟩ | ⟨b, -, -, hconsume⟩ |
    ⟨x, -, -, hconsume⟩ | ⟨w, -, rfl, -⟩ | ⟨-, -, rfl⟩ | ⟨-, rfl⟩ | ⟨bs, rfl, -⟩
  · exact hok.congr ⟨by simp, by simp, by simp, by simp, by simp⟩
  · exact hok.mapBuild hbuild
  · exact hok.congr ⟨rfl, rfl, rfl, rfl, rfl⟩
  · exact hok.congr ⟨rfl, rfl, rfl, rfl, rfl⟩
  · exact hok.consume hconsume
  · exact hok.consume hconsume
  · exact hok.congr ⟨rfl, rfl, rfl, rfl, rfl⟩
  · exact hok.cycleStart
  · exact hok
  · exact hok.congr ⟨by simp, by simp, by simp, by simp, by simp⟩

/-- After a reset of the block there is no buffer, no map and no event. -/
theorem machineOk_of_cleared {s : State} (hbuf : s.buf = []) (hmap : s.map = none) (hevents : s.events = []) :
    MachineOk s := by
  refine ⟨⟨by rw [hbuf]; rfl, fun _ => hbuf⟩, fun m hm => ?_, fun e he => ?_⟩
  · rw [hmap] at hm
    cases hm
  · rw [hevents] at he
    cases he

/-- Settles O44: the state after reset is cleared. -/
theorem resetIsMachineOk : Obligations.ResetIsMachineOk := machineOk_of_cleared rfl rfl rfl

/-- Settles O43: a step takes an item, which touches nothing of the block, and runs an instruction, or delivers bytes; a turn
without an item passes or resets. -/
theorem stepKeepsMachineOk : Obligations.StepKeepsMachineOk := by
  intro s s' hok hstep
  rcases step_cases hstep with ⟨-, rfl⟩ | ⟨e, t, i, hfetch, -, hexec⟩ | ⟨bs, t, r, hfetch, -, rfl⟩
  · rcases idle_cases s with ⟨ts, hidle⟩ | ⟨ts, hidle⟩ <;> rw [hidle]
    · exact hok.congr ⟨rfl, rfl, rfl, rfl, rfl⟩
    · exact machineOk_of_cleared rfl rfl rfl
  · exact (hok.congr (sameMachine_of_fetch hfetch)).exec hexec
  · exact (hok.congr (sameMachine_of_fetch hfetch)).congr ⟨by simp, by simp, by simp, by simp, by simp⟩

end Sys2Proof.Machine

/-! The framer over a sequence of receive events (spec/43_frame_reader.md sections 4 and 5): the transition table, the capture of
a frame, resynchronization, and the run of the machine that computes the framer's function. -/

namespace Sys2Proof.Machine

/-! ### The transition table (R212) -/

theorem exec_rxByte_of_active {s : State} (hactive : s.active = true) (b : Byte) :
    exec (.rxByte b) s = consume (.byte b) s := if_pos hactive

theorem emitSome_eq (s : State) (event : Option Event) :
    s.emitSome event = { s with events := s.events ++ event.toList } := by
  cases event with
  | none => rw [Option.toList_none, List.append_nil]; rfl
  | some ev => rfl

/-- What a consumed event writes: the buffer, whether the cycle goes on, and what it emits. -/
theorem consume_eq {e : RxEvent} {s : State} {t : Taken} (htake : take s.buf e = some t) :
    consume e s = .next { s with buf := t.buf, active := !t.ends, events := s.events ++ t.event.toList } := by
  rw [consume_of_take htake, emitSome_eq]
  rfl

/-- An event that does not end the cycle leaves `ACTIVE` set. -/
theorem consume_of_take_continues {e : RxEvent} {s : State} {buf : Bytes} {event : Option Event} (hactive : s.active = true)
    (htake : take s.buf e = some ⟨buf, event, false⟩) :
    consume e s = .next { s with buf := buf, events := s.events ++ event.toList } := by
  rw [consume_eq htake, Bool.not_false, ← hactive]

/-- A byte that keeps normal form is held. -/
theorem exec_rxByte_pushed {s : State} {b : Byte} {buf : Bytes} (hactive : s.active = true) (hbuf : s.buf = buf)
    (hpush : normalForm (buf ++ [b]) = true) : exec (.rxByte b) s = .next { s with buf := buf ++ [b] } := by
  subst hbuf
  rw [exec_rxByte_of_active hactive, consume_of_take_continues hactive (take_of_normalForm_push hpush)]
  simp

/-- A byte after which bytes are dropped writes the buffer and reports the number. -/
theorem exec_rxByte_dropped {s : State} {b : Byte} {buf left : Bytes} {dropped : Nat} (hactive : s.active = true)
    (hbuf : s.buf = buf) (hdrop : normalise (buf ++ [b]) = (left, dropped + 1)) (hleft : left = [] ∨ left = [0xFF, 0xFF]) :
    exec (.rxByte b) s =
      .next { s with buf := left, events := s.events ++ [.diag .framingError (dropped + 1)] } := by
  subst hbuf
  exact (exec_rxByte_of_active hactive b).trans (consume_of_take_continues hactive (take_of_dropped hdrop hleft))

/-- A byte that completes a frame empties the buffer, ends the cycle and puts the frame out. -/
theorem exec_rxByte_completes {s : State} {b id len op : Byte} {payload : Bytes} (hactive : s.active = true)
    (hawaits : AwaitsChecksum s.buf id len op payload) : exec (.rxByte b) s = .next { s with
      buf := [], active := false
      events := s.events ++
        [.frameOut (s.buf ++ [b]) ⟨id, op, payload, decide (b = cks ([id, len, op] ++ payload))⟩] } := by
  rw [exec_rxByte_of_active hactive, consume_eq (take_of_awaitsChecksum hawaits b)]
  rfl

/-- Settles O35: row by row, a byte is held, or makes the framer drop some, or completes the frame. -/
theorem rxByteTransitionTable : Obligations.RxByteTransitionTable := by
  intro s b hactive
  refine ⟨?_, ?_, ?_, ?_, ?_, ?_, ?_, ?_, ?_, ?_⟩
  · rintro hbuf rfl
    exact exec_rxByte_pushed hactive hbuf rfl
  · intro hbuf hb
    rw [exec_rxByte_dropped hactive hbuf (normalise_first_of_ne hb) (.inl rfl), ← hbuf]
  · rintro hbuf rfl
    exact exec_rxByte_pushed hactive hbuf rfl
  · intro hbuf hb
    exact exec_rxByte_dropped hactive hbuf (normalise_second_of_ne hb) (.inl rfl)
  · rintro hbuf rfl
    rw [exec_rxByte_dropped hactive hbuf normalise_device_ff (.inr rfl), ← hbuf]
  · intro hbuf hb
    exact exec_rxByte_pushed hactive hbuf (normalForm_device hb)
  · intro id hid hbuf hb
    exact exec_rxByte_pushed hactive hbuf (normalForm_body hid hb (by simp; omega))
  · intro id hid hbuf hb
    exact exec_rxByte_dropped hactive hbuf (normalise_length_of_lt hid hb) (.inl rfl)
  · intro id len rest hid hbuf hlen hrest
    exact exec_rxByte_pushed hactive rfl (hbuf ▸ normalForm_body hid hlen (by simpa using hrest))
  · intro id len op payload hid hbuf hlen
    exact exec_rxByte_completes hactive ⟨hbuf, hid, hlen⟩

/-! ### The framer's function on sequences (R216) -/

theorem framesFrom_cons {buf : Bytes} {e : RxEvent} {es : List RxEvent} {t : Taken} {left : Bytes} {evs : List Event}
    (htake : take buf e = some t) (hrest : framesFrom t.buf es = some (left, evs)) :
    framesFrom buf (e :: es) = some (left, t.event.toList ++ evs) := by
  simp only [framesFrom, htake, hrest]

/-- A sequence in two parts: the second starts from the buffer the first leaves. -/
theorem framesFrom_append {buf mid left : Bytes} {es fs : List RxEvent} {evs evs' : List Event}
    (hfirst : framesFrom buf es = some (mid, evs)) (hsecond : framesFrom mid fs = some (left, evs')) :
    framesFrom buf (es ++ fs) = some (left, evs ++ evs') := by
  induction es generalizing buf evs with
  | nil =>
    obtain ⟨rfl, rfl⟩ : buf = mid ∧ [] = evs := by simpa [framesFrom] using hfirst
    exact hsecond
  | cons e es ih =>
    simp only [framesFrom] at hfirst
    split at hfirst
    · cases hfirst
    · rename_i t ht
      split at hfirst
      · cases hfirst
      · rename_i buf' evs'' hrest
        cases hfirst
        rw [List.append_assoc]
        exact framesFrom_cons ht (ih hrest)

/-- Bytes that keep normal form are all held (R204). -/
theorem framesFrom_pushed {buf bs : Bytes} (hnormal : normalForm (buf ++ bs) = true) :
    framesFrom buf (bs.map .byte) = some (buf ++ bs, []) := by
  induction bs generalizing buf with
  | nil => simp [framesFrom]
  | cons b bs ih =>
    rw [List.append_cons] at hnormal ⊢
    exact framesFrom_cons (take_of_normalForm_push (normalForm_of_append hnormal)) (ih hnormal)

/-- Behind a header, the rest of a frame is held up to its checksum, whatever the payload. -/
theorem framesFrom_header_body {id len op : Byte} {payload : Bytes} (hid : id ≠ 0xFF) (hlen : len.toNat = payload.length + 2) :
    framesFrom [0xFF, 0xFF] (([id, len, op] ++ payload).map .byte) = some ([0xFF, 0xFF, id, len, op] ++ payload, []) :=
  framesFrom_pushed (AwaitsChecksum.normalForm ⟨rfl, hid, hlen⟩)

/-- The checksum byte puts the frame out. -/
theorem framesFrom_checksum {buf : Bytes} {id len op : Byte} {payload : Bytes} (hawaits : AwaitsChecksum buf id len op payload)
    (c : Byte) : framesFrom buf [.byte c] = some ([],
      [.frameOut (buf ++ [c]) ⟨id, op, payload, decide (c = cks ([id, len, op] ++ payload))⟩]) :=
  framesFrom_cons (take_of_awaitsChecksum hawaits c) rfl

/-- Settles O40: the header and the claimed bytes up to the last are held, and the last one completes the frame. -/
theorem falseHeaderCapturesBytes : Obligations.FalseHeaderCapturesBytes := by
  intro x len op c payload hx hlen
  have hawaits : AwaitsChecksum ([0xFF, 0xFF, x, len, op] ++ payload) x len op payload := ⟨rfl, hx, hlen⟩
  have hbody : framesFrom [] (([0xFF, 0xFF, x, len, op] ++ payload).map .byte) =
      some ([0xFF, 0xFF, x, len, op] ++ payload, []) := framesFrom_pushed hawaits.normalForm
  rw [List.map_append]
  exact framesFrom_append hbody (framesFrom_checksum hawaits c)

/-! ### Resynchronization (R210) -/

/-- What clean garbage leaves: nothing, or a first or second header byte. -/
def AtHeader (buf : Bytes) : Prop := buf = [] ∨ buf = [0xFF] ∨ buf = [0xFF, 0xFF]

theorem freeOfFalseHeaders_of_cons {b : Byte} {rest : Bytes} (hfree : freeOfFalseHeaders (b :: rest) = true) :
    freeOfFalseHeaders rest = true := by
  rw [freeOfFalseHeaders, Bool.and_eq_true] at hfree
  exact hfree.2

theorem freeOfFalseHeaders_of_append {bs rest : Bytes} (hfree : freeOfFalseHeaders (bs ++ rest) = true) :
    freeOfFalseHeaders rest = true := by
  induction bs with
  | nil => exact hfree
  | cons b bs ih => exact ih (freeOfFalseHeaders_of_cons hfree)

/-- A string free of false headers does not end behind `FF FF x`. -/
theorem not_freeOfFalseHeaders_device {id : Byte} (hid : id ≠ 0xFF) : freeOfFalseHeaders [0xFF, 0xFF, id] = false := by
  simp only [freeOfFalseHeaders, bne_iff_ne.2 hid]
  rfl

/-- In a string free of false headers a byte below 2 follows `FF FF x`. -/
theorem length_lt_of_freeOfFalseHeaders {id len : Byte} {rest : Bytes} (hid : id ≠ 0xFF)
    (hfree : freeOfFalseHeaders (0xFF :: 0xFF :: id :: len :: rest) = true) : len.toNat < 2 := by
  simp only [freeOfFalseHeaders, bne_iff_ne.2 hid, beq_self_eq_true, Bool.true_and, Bool.and_eq_true, Bool.not_eq_true',
    decide_eq_false_iff_not] at hfree
  omega

/-- From the buffer the bytes give diagnostics only, and leave at most a header. -/
def DiagnosticsOnly (buf bs : Bytes) : Prop :=
  ∃ left evs, framesFrom buf (bs.map .byte) = some (left, evs) ∧ AtHeader left ∧ ∀ e ∈ evs, e.isDiag = true

theorem DiagnosticsOnly.pushed {buf bs : Bytes} {b : Byte} (hpush : normalForm (buf ++ [b]) = true)
    (hrest : DiagnosticsOnly (buf ++ [b]) bs) : DiagnosticsOnly buf (b :: bs) := by
  obtain ⟨left, evs, hframes, hleft, hdiag⟩ := hrest
  exact ⟨left, evs, framesFrom_cons (take_of_normalForm_push hpush) hframes, hleft, hdiag⟩

theorem DiagnosticsOnly.dropped {buf bs mid : Bytes} {b : Byte} {dropped : Nat}
    (hdrop : normalise (buf ++ [b]) = (mid, dropped + 1)) (hmid : mid = [] ∨ mid = [0xFF, 0xFF])
    (hrest : DiagnosticsOnly mid bs) : DiagnosticsOnly buf (b :: bs) := by
  obtain ⟨left, evs, hframes, hleft, hdiag⟩ := hrest
  exact ⟨left, _, framesFrom_cons (take_of_dropped hdrop hmid) hframes, hleft, by simpa [Event.isDiag] using hdiag⟩

/-- Garbage free of false headers, with the bytes still held in front of it, gives diagnostics only: a device byte is always
followed by a length byte below 2, which drops it. -/
theorem diagnosticsOnly_of_freeOfFalseHeaders {buf g : Bytes}
    (hbuf : AtHeader buf ∨ ∃ id, id ≠ 0xFF ∧ buf = [0xFF, 0xFF, id]) (hfree : freeOfFalseHeaders (buf ++ g) = true) :
    DiagnosticsOnly buf g := by
  induction g generalizing buf with
  | nil =>
    rcases hbuf with hheader | ⟨id, hid, rfl⟩
    · exact ⟨buf, [], rfl, hheader, by simp⟩
    · rw [List.append_nil, not_freeOfFalseHeaders_device hid] at hfree
      cases hfree
  | cons b g ih =>
    rcases hbuf with (rfl | rfl | rfl) | ⟨id, hid, rfl⟩
    · by_cases hb : b = 0xFF
      · subst hb
        exact .pushed rfl (ih (.inl (.inr (.inl rfl))) hfree)
      · exact .dropped (normalise_first_of_ne hb) (.inl rfl)
          (ih (.inl (.inl rfl)) (freeOfFalseHeaders_of_append (bs := [b]) hfree))
    · by_cases hb : b = 0xFF
      · subst hb
        exact .pushed rfl (ih (.inl (.inr (.inr rfl))) hfree)
      · exact .dropped (normalise_second_of_ne hb) (.inl rfl)
          (ih (.inl (.inl rfl)) (freeOfFalseHeaders_of_append (bs := [0xFF, b]) hfree))
    · by_cases hb : b = 0xFF
      · subst hb
        exact .dropped normalise_device_ff (.inr rfl)
          (ih (.inl (.inr (.inr rfl))) (freeOfFalseHeaders_of_append (bs := [0xFF]) hfree))
      · exact .pushed (normalForm_device hb) (ih (.inr ⟨b, hb, rfl⟩) hfree)
    · have hlen := length_lt_of_freeOfFalseHeaders hid hfree
      exact .dropped (normalise_length_of_lt hid hlen) (.inl rfl)
        (ih (.inl (.inl rfl)) (freeOfFalseHeaders_of_append (bs := [0xFF, 0xFF, id, b]) hfree))

/-- The two header bytes of a frame leave exactly a header, whatever header bytes stand before them: surplus ones are
dropped. -/
theorem framesFrom_header {buf : Bytes} (hbuf : AtHeader buf) : ∃ evs,
    framesFrom buf (([0xFF, 0xFF] : Bytes).map .byte) = some ([0xFF, 0xFF], evs) ∧ ∀ e ∈ evs, e.isDiag = true := by
  rcases hbuf with rfl | rfl | rfl
  · exact ⟨_, rfl, by decide⟩
  · exact ⟨_, rfl, by decide⟩
  · exact ⟨_, rfl, by decide⟩

theorem frameBytes_dropLast (deviceId opcode : Byte) (payload : Bytes) : (frameBytes deviceId opcode payload).dropLast =
    [0xFF, 0xFF, deviceId, BitVec.ofNat 8 (2 + payload.length), opcode] ++ payload := by
  rw [frameBytes_eq_window, List.dropLast_concat]

theorem frameBytes_eq_dropLast_concat (deviceId opcode : Byte) (payload : Bytes) : frameBytes deviceId opcode payload =
    (frameBytes deviceId opcode payload).dropLast ++ [cks (frameBody deviceId opcode payload)] := by
  rw [frameBytes_dropLast, frameBytes_eq_window]

/-- All of a frame but its last byte awaits its checksum. -/
theorem awaitsChecksum_frameBytes_dropLast {deviceId : Byte} {payload : Bytes} (hid : deviceId ≠ 0xFF)
    (hlen : payload.length ≤ 253) (opcode : Byte) : AwaitsChecksum (frameBytes deviceId opcode payload).dropLast deviceId
      (BitVec.ofNat 8 (2 + payload.length)) opcode payload :=
  ⟨frameBytes_dropLast deviceId opcode payload, hid, toNat_lengthByte hlen⟩

/-- The last byte of a frame puts it out with its checksum valid. -/
theorem take_frameBytes_last {deviceId : Byte} {payload : Bytes} (hid : deviceId ≠ 0xFF) (hlen : payload.length ≤ 253)
    (opcode : Byte) : take (frameBytes deviceId opcode payload).dropLast (.byte (cks (frameBody deviceId opcode payload))) =
      some ⟨[], some (.frameOut (frameBytes deviceId opcode payload) ⟨deviceId, opcode, payload, true⟩), true⟩ := by
  rw [take_of_awaitsChecksum (awaitsChecksum_frameBytes_dropLast hid hlen opcode), ← frameBytes_eq_dropLast_concat]
  simp [frameBody]

/-- Settles O39: the garbage in front leaves at most a header, from which the frame's own header and bytes are held, its last
byte completes it, and the garbage behind it starts from an empty buffer. -/
theorem resynchronizesBetweenCleanGarbage : Obligations.ResynchronizesBetweenCleanGarbage := by
  rintro g h payload f deviceId opcode hg hh hid hlen rfl
  obtain ⟨left, evs, hgarbage, hleft, hdiag⟩ := diagnosticsOnly_of_freeOfFalseHeaders (buf := []) (.inl (.inl rfl)) hg
  obtain ⟨evs', hheader, hdiag'⟩ := framesFrom_header hleft
  obtain ⟨lastBuf, after, hbehind, -, hafter⟩ := diagnosticsOnly_of_freeOfFalseHeaders (buf := []) (.inl (.inl rfl)) hh
  have hfront : framesFrom [] ((g ++ (frameBytes deviceId opcode payload).dropLast).map .byte) =
      some ((frameBytes deviceId opcode payload).dropLast, evs ++ evs') := by
    have hbody := framesFrom_header_body (op := opcode) hid (toNat_lengthByte hlen)
    have happend := framesFrom_append (framesFrom_append hgarbage hheader) hbody
    rw [← List.map_append, ← List.map_append, List.append_assoc, List.append_nil] at happend
    rw [frameBytes_dropLast]
    exact happend
  have hframe : framesFrom [] ((g ++ frameBytes deviceId opcode payload).map .byte) = some ([],
      evs ++ evs' ++ [.frameOut (frameBytes deviceId opcode payload) ⟨deviceId, opcode, payload, true⟩]) := by
    rw [frameBytes_eq_dropLast_concat, ← List.append_assoc, List.map_append, ← frameBytes_eq_dropLast_concat]
    exact framesFrom_append hfront (framesFrom_cons (take_frameBytes_last hid hlen opcode) rfl)
  refine ⟨evs ++ evs', after, _, lastBuf, hfront, hframe, ?_, ?_⟩
  · rw [List.map_append]
    exact framesFrom_append hframe hbehind
  · simp only [List.forall_mem_append]
    exact ⟨⟨hdiag, hdiag'⟩, hafter⟩

/-! ### Runs of the machine (R60, R216) -/

theorem core_run_succ {M : Host.Core} {s s' : M.State} (hstep : M.step s = .next s') (k : Nat) :
    M.run (k + 1) s = M.run k s' := by
  rw [Host.Core.run, hstep]

theorem run_succ {s s' : State} (hstep : step s = .next s') (k : Nat) :
    Host.Core.run core (k + 1) s = Host.Core.run core k s' :=
  core_run_succ hstep k

/-- The word of a receive event decodes to the instruction that consumes the event. -/
theorem exec_decodeRx_word {s : State} (hactive : s.active = true) (e : RxEvent) :
    exec (decodeRx e.word) s = consume e s := by
  cases e with
  | byte b => rw [RxEvent.word, decodeRx_byteWord, exec_rxByte_of_active hactive]
  | timeout => rw [RxEvent.word, decodeRx_timeoutWord, exec_rxTimeout_of_active hactive]

/-- The transport's turn in a cycle: the framer takes the next event. -/
theorem step_receive_of_active {s : State} {e : RxEvent} {t : Taken} {ts : List Turn} {ws : List (BitVec 9)}
    (hactive : s.active = true) (hturns : s.turns = .receive :: ts) (hreceived : s.received = e.word :: ws)
    (htake : take s.buf e = some t) : step s = .next { s with
      buf := t.buf, active := !t.ends, events := s.events ++ t.event.toList, received := ws, turns := ts } :=
  (step_of_fetch_ok (fetch_receive hturns hreceived) rfl).trans
    ((exec_decodeRx_word (s := { s with turns := ts, received := ws }) hactive e).trans
      (consume_eq (s := { s with turns := ts, received := ws }) htake))

/-- The state after the framer's own step from a state that is in a cycle or starts one: a request is used up only if no cycle
was active. -/
def afterStart (s : State) : State := { s with active := true, oneshot := s.active && s.oneshot }

theorem exec_cycleStart_of_moves {s : State} (hmoves : s.active = true ∨ s.run = true) :
    exec .cycleStart s = .next (afterStart s) := by
  unfold afterStart
  cases hactive : s.active with
  | true => rw [exec_cycleStart_of_not_enabled (.inl hactive), Bool.true_and, ← hactive]
  | false =>
    have hrun : s.run = true := hmoves.resolve_left (by simp [hactive])
    exact exec_cycleStart_of_enabled hactive (.inr hrun)

/-- The framer's own turn while a cycle is active or `RUN` is set. -/
theorem step_cycleStart_of_moves {s : State} {ts : List Turn} (hmoves : s.active = true ∨ s.run = true)
    (hturns : s.turns = .cycleStart :: ts) : step s = .next (afterStart { s with turns := ts }) :=
  (step_of_fetch_ok (fetch_cycleStart hturns) rfl).trans (exec_cycleStart_of_moves (s := { s with turns := ts }) hmoves)

/-- The state after the framer's own step and a receive event that it takes as `t`. -/
def afterReceive (s : State) (t : Taken) (ts : List Turn) (ws : List (BitVec 9)) : State :=
  { s with
    buf := t.buf, active := !t.ends, oneshot := s.active && s.oneshot, events := s.events ++ t.event.toList,
    received := ws, turns := ts }

/-- The framer's own step and the taking of a receive event, as two steps of a run. -/
theorem run_receive {s : State} {e : RxEvent} {t : Taken} {ts : List Turn} {ws : List (BitVec 9)}
    (hmoves : s.active = true ∨ s.run = true) (hturns : s.turns = .cycleStart :: .receive :: ts)
    (hreceived : s.received = e.word :: ws) (htake : take s.buf e = some t) (k : Nat) :
    Host.Core.run core (k + 2) s = Host.Core.run core k (afterReceive s t ts ws) := by
  rw [run_succ (step_cycleStart_of_moves hmoves hturns),
    run_succ (step_receive_of_active (s := afterStart { s with turns := .receive :: ts }) rfl rfl hreceived htake)]
  rfl

/-- Settles O41: by induction on the events; each is taken in two steps, which leave the framer in order and `RUN` set. -/
theorem runOfReceiveStepsComputesFrames : Obligations.RunOfReceiveStepsComputesFrames := by
  intro es
  induction es with
  | nil =>
    intro s _ _ hreceived _
    exact ⟨s.buf, [], s, rfl, rfl, rfl, (List.append_nil _).symm, hreceived, rfl, rfl⟩
  | cons e es ih =>
    intro s hframer hrun hreceived hturns
    obtain ⟨hnormal, -⟩ := hframer
    obtain ⟨t, htake, htaken⟩ := take_of_normalForm hnormal e
    have hsteps := run_receive (.inr hrun) hturns hreceived htake (2 * es.length)
    have hframer' : FramerOk (afterReceive s t (receiveTurns es.length) (es.map RxEvent.word)) :=
      ⟨htaken.normal, fun hactive => htaken.ended (by simpa [afterReceive] using hactive)⟩
    obtain ⟨buf, evs, s', hframes, hrest, hbuf, hevents, hreceived', hresponses, hmap⟩ := ih _ hframer' hrun rfl rfl
    refine ⟨buf, t.event.toList ++ evs, s', framesFrom_cons htake hframes, hsteps.trans hrest, hbuf, ?_, hreceived',
      hresponses, hmap⟩
    rw [hevents, ← List.append_assoc]
    rfl

/-- In a cycle, bytes that keep normal form are taken one by one, and only the buffer grows. -/
theorem run_pushed {s : State} {bs : Bytes} {ts : List Turn} {ws : List (BitVec 9)} (hactive : s.active = true)
    (hnormal : normalForm (s.buf ++ bs) = true) (hturns : s.turns = receiveTurns bs.length ++ ts)
    (hreceived : s.received = bs.map byteWord ++ ws) (k : Nat) : Host.Core.run core (k + 2 * bs.length) s =
      Host.Core.run core k { s with buf := s.buf ++ bs, received := ws, turns := ts } := by
  induction bs generalizing s with
  | nil =>
    obtain rfl : s.turns = ts := hturns
    obtain rfl : s.received = ws := hreceived
    rw [List.append_nil]
    rfl
  | cons b bs ih =>
    rw [List.append_cons] at hnormal
    have htake := take_of_normalForm_push (normalForm_of_append hnormal)
    have hsteps := run_receive (e := .byte b) (ts := receiveTurns bs.length ++ ts) (ws := bs.map byteWord ++ ws)
      (.inl hactive) hturns hreceived htake (k + 2 * bs.length)
    have hafter : afterReceive s ⟨s.buf ++ [b], none, false⟩ (receiveTurns bs.length ++ ts) (bs.map byteWord ++ ws) =
        { s with
          buf := s.buf ++ [b], received := bs.map byteWord ++ ws, turns := receiveTurns bs.length ++ ts } := by
      simp [afterReceive, hactive]
    rw [hafter] at hsteps
    have hrest := ih (s := { s with
      buf := s.buf ++ [b], received := bs.map byteWord ++ ws, turns := receiveTurns bs.length ++ ts }) hactive hnormal
      rfl rfl
    rw [List.append_cons]
    exact hsteps.trans hrest

theorem receiveTurns_add (m n : Nat) : receiveTurns (m + n) = receiveTurns m ++ receiveTurns n := by
  induction m with
  | zero => rw [Nat.zero_add]; rfl
  | succ m ih => rw [Nat.succ_add, receiveTurns, ih]; rfl

/-- The bytes of a frame that the transport holds come out, in a cycle with an empty buffer, as one `FrameOut`: all of them but
the last are held, and the last one ends the cycle. -/
theorem run_frameBytes {s : State} {deviceId opcode : Byte} {payload f : Bytes} (hid : deviceId ≠ 0xFF)
    (hlen : payload.length ≤ 253) (hf : f = frameBytes deviceId opcode payload) (hactive : s.active = true)
    (hbuf : s.buf = []) (hreceived : s.received = f.map byteWord) (hturns : s.turns = receiveTurns f.length) :
    Host.Core.run core (2 * f.length) s = .next { s with
      buf := [], active := false, events := s.events ++ [.frameOut f ⟨deviceId, opcode, payload, true⟩]
      received := [], turns := [] } := by
  obtain ⟨front, c, hsplit, hawaits, hlast⟩ : ∃ front c, f = front ++ [c] ∧
      AwaitsChecksum front deviceId (BitVec.ofNat 8 (2 + payload.length)) opcode payload ∧
      take front (.byte c) = some ⟨[], some (.frameOut f ⟨deviceId, opcode, payload, true⟩), true⟩ := by
    rw [hf]
    exact ⟨_, _, frameBytes_eq_dropLast_concat deviceId opcode payload,
      awaitsChecksum_frameBytes_dropLast hid hlen opcode, take_frameBytes_last hid hlen opcode⟩
  have hlength : f.length = front.length + 1 := by rw [hsplit, List.length_append, List.length_singleton]
  rw [hlength, receiveTurns_add] at hturns
  rw [hsplit, List.map_append] at hreceived
  have hnormal : normalForm (s.buf ++ front) = true := by rw [hbuf]; exact hawaits.normalForm
  have hfront := run_pushed hactive hnormal hturns hreceived 2
  have hend := run_receive (s := { s with buf := s.buf ++ front, received := [byteWord c], turns := receiveTurns 1 })
    (e := .byte c) (.inl hactive) rfl rfl (by rw [hbuf]; exact hlast) 0
  have hsteps : 2 * f.length = 2 + 2 * front.length := by omega
  rw [hsteps]
  refine (hfront.trans hend).trans (congrArg Host.Outcome.next ?_)
  simp only [afterReceive, hactive, Bool.true_and]
  rfl

/-- Settles O52: the wire's turn delivers the frame, whose bytes the framer then takes. -/
theorem wireFrameIsReceived : Obligations.WireFrameIsReceived := by
  intro s deviceId opcode payload f hid hlen hf hactive hbuf hreceived hwire hturns
  have hdec : decode (.wire f) = .ok (.frame deviceId opcode payload) := decodeWire_eq_frame_iff.2 ⟨hid, hlen, hf⟩
  have hdeliver : step s = .next { s with
      received := f.map byteWord, arrivals := s.arrivals + f.length, turns := receiveTurns f.length, wire := [] } := by
    refine (step_of_fetch_ok (fetch_wire hturns hwire) hdec).trans ?_
    rw [exec_frame, ← hf, deliver_of_active (s := { s with turns := receiveTurns f.length, wire := [] }) hactive, hreceived]
    rfl
  rw [Nat.add_comm, run_succ hdeliver]
  exact ⟨_, run_frameBytes hid hlen hf hactive hbuf rfl rfl, rfl, rfl, rfl, rfl, rfl⟩

end Sys2Proof.Machine

/-! The FieldCodec's derived facts (spec/40_field_codec.md sections 3 and 4): the fixed-point encodes, the round trips, and the port
words of decoded values. -/

namespace Sys2Proof.Machine

/-! ### The fixed-point encodes (R144, R145, R147) -/

/-- `round_nearest` of two fractions of one value is the same. -/
theorem roundNearest_of_div_eq {n n' : Int} {d d' : Nat} (hd : 0 < d) (hd' : 0 < d')
    (heq : (n : Rat) / d = (n' : Rat) / d') : roundNearest n d = roundNearest n' d' := by
  have hdRat : (d : Rat) ≠ 0 := by exact_mod_cast hd.ne'
  have hdRat' : (d' : Rat) ≠ 0 := by exact_mod_cast hd'.ne'
  rw [div_eq_div_iff hdRat hdRat'] at heq
  obtain ⟨-, -, -, hsame⟩ := roundNearestMeetsItsRule n' d' hd'
  exact hsame n d hd (by exact_mod_cast heq.symm)

/-- The integer a rational is rounded to at a scale (R144, R145). -/
def rawOf (scale : Nat) (q : Rat) : Int := roundNearest (q * 2 ^ scale).num (q * 2 ^ scale).den

/-- A fixed-point encode of an operand that stands for a rational, in any form of the fraction, packs the rational's raw. -/
theorem fixedPack_of_ratio {v : RealOperand} {n : Int} {d : Nat} (hv : ratioOf v = some (n, d)) (hd : 0 < d) {q : Rat}
    (hq : (n : Rat) / d = q) (t : PrimType) (scale : Nat) (be : Bool) :
    fixedPack t scale be v = fieldPack t be (rawOf scale q) := by
  have hscaled : ((n * 2 ^ scale : Int) : Rat) / d = (q * 2 ^ scale).num / (q * 2 ^ scale).den := by
    rw [Rat.num_div_den, ← hq]
    push_cast
    ring
  simp only [fixedPack, hv, rawOf]
  rw [roundNearest_of_div_eq hd (q * 2 ^ scale).den_pos hscaled]

theorem fixedPack_value (t : PrimType) (scale : Nat) (be : Bool) (q : Rat) :
    fixedPack t scale be (.value q) = fieldPack t be (rawOf scale q) :=
  fixedPack_of_ratio rfl q.den_pos q.num_div_den t scale be

/-- The raw of a rational is within 1/2 of the scaled rational (R147). -/
theorem rawOf_within_half (scale : Nat) (q : Rat) : |q * 2 ^ scale - rawOf scale q| ≤ 1 / 2 := by
  have hhalf := roundNearest_within_half (q * 2 ^ scale).num (q * 2 ^ scale).den_pos
  rwa [Rat.num_div_den, abs_sub_comm] at hhalf

/-- A word whose exponent field is all ones is an infinity or a NaN. -/
theorem binary64_eq_none {val : BitVec 64} (hexp : (val.extractLsb' 52 11).toNat = 2047) : binary64 val = none :=
  if_pos hexp

theorem fixedPack_not_finite {val : BitVec 64} (hexp : (val.extractLsb' 52 11).toNat = 2047) (t : PrimType) (scale : Nat)
    (be : Bool) : fixedPack t scale be (.port val) = .error .encodeRangeError := by
  simp only [fixedPack, ratioOf, binary64_eq_none hexp]

theorem exec_fldEncodeFxp32 (v : RealOperand) (s : State) : exec (.fldEncodeFxp32 v) s =
    .next (s.answer ((fixedPack .fxp32 16 s.bigend v).map .bytes)) := rfl

theorem exec_fldEncodeFxp16 (v : RealOperand) (s : State) : exec (.fldEncodeFxp16 v) s =
    .next (s.answer ((fixedPack .fxp16 6 s.bigend v).map .bytes)) := rfl

/-- Settles O16: the raw of the rational is packed like an integer of its width, and a word that is no number is refused before
rounding. -/
theorem fldEncodeFixedRoundsToNearest : Obligations.FldEncodeFixedRoundsToNearest := by
  refine ⟨fun l => ⟨decodeCommand_fldEncode (ty := 8) rfl l, decodeCommand_fldEncode (ty := 9) rfl l⟩,
    fun s q => ?_, fun s q => ?_, fun s val hexp => ⟨?_, ?_⟩⟩
  · have hscale : (2 : Rat) ^ 16 = 65536 := by norm_num
    refine ⟨rawOf 16 q, by rw [rawOf, hscale], hscale ▸ rawOf_within_half 16 q, ?_⟩
    exact exec_of_fieldPack_four (t := .fxp32) rfl (by rw [exec_fldEncodeFxp32, fixedPack_value])
  · have hscale : (2 : Rat) ^ 6 = 64 := by norm_num
    refine ⟨rawOf 6 q, by rw [rawOf, hscale], hscale ▸ rawOf_within_half 6 q, ?_⟩
    exact exec_of_fieldPack_two (t := .fxp16) rfl (by rw [exec_fldEncodeFxp16, fixedPack_value])
  · rw [exec_fldEncodeFxp32, fixedPack_not_finite hexp]
    rfl
  · rw [exec_fldEncodeFxp16, fixedPack_not_finite hexp]
    rfl

/-- The value of a finite binary64 word with exponent field `e` and fraction `f`, without its sign. -/
def finiteMagnitude (e f : Nat) : Rat :=
  if e = 0 then (f : Rat) / 2 ^ 1074 else ((2 ^ 52 + f : Nat) : Rat) * 2 ^ ((e : Int) - 1075)

/-- The fraction `binary64` gives a finite word, without its sign. -/
def finiteNumerator (e f : Nat) : Int := (if e = 0 then (f : Int) else 2 ^ 52 + f) * 2 ^ (max e 1 - 1075)

theorem binary64_eq_some {val : BitVec 64} {e f : Nat} (he : e = (val.extractLsb' 52 11).toNat)
    (hf : f = (val.extractLsb' 0 52).toNat) (hfinite : e ≠ 2047) : binary64 val =
      some (if val.msb then -finiteNumerator e f else finiteNumerator e f, 2 ^ (1075 - max e 1)) := by
  subst he hf
  exact if_neg hfinite

/-- A power of two whose exponent may be negative, as a power above and one below. -/
theorem two_zpow_eq_div (e : Nat) : (2 : Rat) ^ ((e : Int) - 1075) = 2 ^ (e - 1075) / 2 ^ (1075 - e) := by
  have hexp : (e : Int) - 1075 = (e - 1075 : Nat) - (1075 - e : Nat) := by omega
  rw [hexp, zpow_sub₀ two_ne_zero, zpow_natCast, zpow_natCast]

theorem finiteNumerator_div (e f : Nat) :
    (finiteNumerator e f : Rat) / (2 ^ (1075 - max e 1) : Nat) = finiteMagnitude e f := by
  unfold finiteNumerator finiteMagnitude
  by_cases he : e = 0
  · have habove : max e 1 - 1075 = 0 := by omega
    have hbelow : 1075 - max e 1 = 1074 := by omega
    rw [if_pos he, if_pos he, habove, hbelow]
    simp only [pow_zero, mul_one, Nat.cast_pow, Int.cast_natCast, Nat.cast_ofNat]
  · have hmax : max e 1 = e := by omega
    rw [if_neg he, if_neg he, hmax, two_zpow_eq_div]
    push_cast
    rw [mul_div_assoc]

/-- A finite word stands for the rational IEEE 754 gives it. -/
theorem ratioOf_finite {val : BitVec 64} {e f : Nat} (he : e = (val.extractLsb' 52 11).toNat)
    (hf : f = (val.extractLsb' 0 52).toNat) (hfinite : e ≠ 2047) : ∃ n d, ratioOf (.port val) = some (n, d) ∧ 0 < d ∧
      (n : Rat) / d = (if val.msb then -1 else 1) * finiteMagnitude e f := by
  refine ⟨_, _, binary64_eq_some he hf hfinite, Nat.two_pow_pos _, ?_⟩
  rw [← finiteNumerator_div]
  cases val.msb with
  | true =>
    rw [if_pos rfl, if_pos rfl, Int.cast_neg]
    ring
  | false => rw [if_neg Bool.false_ne_true, if_neg Bool.false_ne_true, one_mul]

/-- Settles O17: the word is a form of the rational's fraction, and the encodes look at its value only. -/
theorem fixedPortOperandIsItsRational : Obligations.FixedPortOperandIsItsRational := by
  intro s val e f q he hf hfinite hq
  obtain ⟨n, d, hword, hd, hvalue⟩ := ratioOf_finite he hf hfinite
  have hpack (t : PrimType) (scale : Nat) :
      fixedPack t scale s.bigend (.port val) = fixedPack t scale s.bigend (.value q) := by
    rw [fixedPack_of_ratio hword hd (hvalue.trans hq.symm), fixedPack_value]
  constructor
  · rw [exec_fldEncodeFxp32, exec_fldEncodeFxp32, hpack]
  · rw [exec_fldEncodeFxp16, exec_fldEncodeFxp16, hpack]

/-! ### Bytes and numbers, both ways (R9) -/

theorem ofInt_add_mul_256 (v k : Int) : BitVec.ofInt 8 (v + k * 256) = BitVec.ofInt 8 v := by
  apply BitVec.eq_of_toNat_eq
  rw [BitVec.toNat_ofInt, BitVec.toNat_ofInt]
  change ((v + k * 256) % 256).toNat = (v % 256).toNat
  rw [Int.add_mul_emod_self_right]

/-- The bytes of a number depend on it modulo `256 ^ w` only. -/
theorem bytesOf_add_mul (w : Nat) (v k : Int) : bytesOf w (v + k * 256 ^ w) = bytesOf w v := by
  induction w generalizing k with
  | zero => rfl
  | succ w ih =>
    have hpow : k * 256 ^ (w + 1) = k * 256 * 256 ^ w := by ring
    have hpos : (256 ^ w : Int) ≠ 0 := by positivity
    rw [hpow, bytesOf, bytesOf, ih, Int.add_mul_ediv_right _ _ hpos, ofInt_add_mul_256]

theorem bytesOf_emod (w : Nat) (v : Int) : bytesOf w (v % 256 ^ w) = bytesOf w v := by
  have hsplit : v = v % 256 ^ w + v / 256 ^ w * 256 ^ w := (Int.emod_add_ediv_mul v (256 ^ w)).symm
  conv_rhs => rw [hsplit, bytesOf_add_mul]

/-- A number below `256 ^ w` is the unsigned value of its `w` bytes. -/
theorem uintOf_bytesOf {w : Nat} {v : Int} (hnonneg : 0 ≤ v) (hlt : v < 256 ^ w) : (uintOf (bytesOf w v) : Int) = v := by
  induction w generalizing v with
  | zero =>
    rw [pow_zero] at hlt
    simp only [bytesOf, uintOf_nil]
    omega
  | succ w ih =>
    have hpos : (0 : Int) < 256 ^ w := by positivity
    have hhead : v / 256 ^ w < 256 := Int.ediv_lt_of_lt_mul hpos (by rwa [pow_succ, mul_comm] at hlt)
    have hhead' : 0 ≤ v / 256 ^ w := Int.ediv_nonneg hnonneg hpos.le
    have hbyte : ((BitVec.ofInt 8 (v / 256 ^ w)).toNat : Int) = v / 256 ^ w := by
      rw [BitVec.toNat_ofInt]
      omega
    have htail := ih (Int.emod_nonneg v hpos.ne') (Int.emod_lt_of_pos v hpos)
    rw [bytesOf_emod] at htail
    rw [bytesOf, uintOf_cons, bytesOf_length]
    push_cast
    rw [hbyte, htail, Int.ediv_mul_add_emod]

/-- A number in the range of two's complement is the signed value of its `w` bytes. -/
theorem sintOf_bytesOf {w : Nat} {v : Int} (hlo : -256 ^ w ≤ 2 * v) (hhi : 2 * v < 256 ^ w) :
    sintOf (bytesOf w v) = v := by
  have hcast : ((256 ^ w : Nat) : Int) = 256 ^ w := by push_cast; rfl
  rw [sintOf, bytesOf_length]
  rcases le_or_gt 0 v with hsign | hsign
  · have huint := uintOf_bytesOf hsign (w := w) (by omega)
    rw [if_pos (by omega), huint]
  · have huint := uintOf_bytesOf (w := w) (v := v + 1 * 256 ^ w) (by omega) (by omega)
    rw [bytesOf_add_mul] at huint
    rw [if_neg (by omega), huint]
    omega

/-- The bytes of a string's unsigned value are the string. -/
theorem bytesOf_uintOf (bs : Bytes) : bytesOf bs.length (uintOf bs) = bs := by
  induction bs with
  | nil => rfl
  | cons b bs ih =>
    have hlt : (uintOf bs : Int) < 256 ^ bs.length := by exact_mod_cast uintOf_lt bs
    have hvalue : (uintOf (b :: bs) : Int) = uintOf bs + b.toNat * 256 ^ bs.length := by
      rw [uintOf_cons]
      push_cast
      ring
    have hhead : (uintOf bs + b.toNat * 256 ^ bs.length : Int) / 256 ^ bs.length = b.toNat := by
      rw [Int.add_mul_ediv_right _ _ (by positivity), Int.ediv_eq_zero_of_lt (by positivity) hlt, zero_add]
    rw [List.length_cons, bytesOf, hvalue, hhead, bytesOf_add_mul, ih, BitVec.ofInt_natCast, BitVec.ofNat_toNat,
      BitVec.setWidth_eq]

/-- The bytes of a string's signed value are the string. -/
theorem bytesOf_sintOf (bs : Bytes) : bytesOf bs.length (sintOf bs) = bs := by
  unfold sintOf
  split
  · exact bytesOf_uintOf bs
  · rw [sub_eq_add_neg, ← neg_one_mul, bytesOf_add_mul, bytesOf_uintOf]

theorem sintOf_bounds (bs : Bytes) : -256 ^ bs.length ≤ 2 * sintOf bs ∧ 2 * sintOf bs < 256 ^ bs.length := by
  have hcast : ((256 ^ bs.length : Nat) : Int) = 256 ^ bs.length := by push_cast; rfl
  have hlt := uintOf_lt bs
  unfold sintOf
  split <;> omega

/-! ### The number a type's bytes carry (R86, R87) -/

/-- The types whose number is read as two's complement. -/
def PrimType.signed : PrimType → Bool
  | .i8 | .i16 | .i32 | .fxp32 | .fxp16 => true
  | .u8 | .u16 | .u32 | .f32 | .f64 => false

/-- The number most-significant-first bytes carry as a type: what `FLD_ENCODE` packs. -/
def numberOf (t : PrimType) (m : Bytes) : Int := if t.signed then sintOf m else uintOf m

/-- The value of a type that a number stands for. -/
def valueOf : PrimType → Int → Value
  | .f32, v => .f32 (BitVec.ofInt 32 v)
  | .f64, v => .f64 (BitVec.ofInt 64 v)
  | .fxp32, v => .fixed v 16
  | .fxp16, v => .fixed v 6
  | .u8, v | .i8, v | .u16, v | .i16, v | .u32, v | .i32, v => .int v

/-- What a type's bytes are interpreted as is the value of the number they carry. -/
theorem interpret_eq_valueOf (t : PrimType) (m : Bytes) : interpret t m = valueOf t (numberOf t m) := by
  cases t with
  | f32 | f64 => simp only [interpret, valueOf, numberOf, PrimType.signed, Bool.false_eq_true, if_false, BitVec.ofInt_natCast]
  | _ => rfl

/-- The range of a type is that of its width, as two's complement or unsigned (R86). -/
theorem range_iff (t : PrimType) (v : Int) : t.lo ≤ v ∧ v ≤ t.hi ↔
    if t.signed then -256 ^ t.width ≤ 2 * v ∧ 2 * v < 256 ^ t.width else 0 ≤ v ∧ v < 256 ^ t.width := by
  cases t <;> norm_num [PrimType.lo, PrimType.hi, PrimType.signed, PrimType.width] <;> omega

theorem numberOf_bytesOf {t : PrimType} {v : Int} (hlo : t.lo ≤ v) (hhi : v ≤ t.hi) :
    numberOf t (bytesOf t.width v) = v := by
  have hrange := (range_iff t v).1 ⟨hlo, hhi⟩
  unfold numberOf
  split_ifs at hrange ⊢
  · exact sintOf_bytesOf hrange.1 hrange.2
  · exact uintOf_bytesOf hrange.1 hrange.2

theorem bytesOf_numberOf {t : PrimType} {m : Bytes} (hlen : m.length = t.width) : bytesOf t.width (numberOf t m) = m := by
  unfold numberOf
  rw [← hlen]
  split_ifs
  · exact bytesOf_sintOf m
  · exact bytesOf_uintOf m

theorem numberOf_range {t : PrimType} {m : Bytes} (hlen : m.length = t.width) :
    t.lo ≤ numberOf t m ∧ numberOf t m ≤ t.hi := by
  rw [range_iff, ← hlen]
  unfold numberOf
  split_ifs
  · exact sintOf_bounds m
  · exact ⟨by positivity, by exact_mod_cast uintOf_lt m⟩

/-! ### The round trips (R146) -/

theorem fieldPack_of_range {t : PrimType} {v : Int} (hlo : t.lo ≤ v) (hhi : v ≤ t.hi) (be : Bool) :
    fieldPack t be v = .ok (le be (bytesOf t.width v)) := if_neg (by omega)

theorem fieldPack_eq_ok {t : PrimType} {be : Bool} {v : Int} {bs : Bytes} (hpack : fieldPack t be v = .ok bs) :
    t.lo ≤ v ∧ v ≤ t.hi ∧ bs = le be (bytesOf t.width v) := by
  unfold fieldPack at hpack
  split_ifs at hpack with hrange
  cases hpack
  exact ⟨by omega, by omega, rfl⟩

/-- Packing, then decoding with any bytes behind, gives the number's value. -/
theorem fieldDecode_bytesOf_append {t : PrimType} {v : Int} (hlo : t.lo ≤ v) (hhi : v ≤ t.hi) (be : Bool) (rest : Bytes) :
    fieldDecode t be (le be (bytesOf t.width v) ++ rest) = .ok (valueOf t v) := by
  rw [fieldDecode_append (by simp), le_le, interpret_eq_valueOf, numberOf_bytesOf hlo hhi]

/-- Enough bytes carry a number in the type's range: decoding gives its value and packing it gives the first bytes back. -/
theorem exists_number_of_width_le {t : PrimType} {bs : Bytes} (hlen : t.width ≤ bs.length) (be : Bool) : ∃ v,
    t.lo ≤ v ∧ v ≤ t.hi ∧ fieldDecode t be bs = .ok (valueOf t v) ∧ fieldPack t be v = .ok (bs.take t.width) := by
  have hwidth : (le be (bs.take t.width)).length = t.width := by simp [hlen]
  obtain ⟨hlo, hhi⟩ := numberOf_range hwidth
  refine ⟨numberOf t (le be (bs.take t.width)), hlo, hhi, ?_, ?_⟩
  · rw [fieldDecode, if_neg (by omega), interpret_eq_valueOf]
  · rw [fieldPack_of_range hlo hhi, bytesOf_numberOf hwidth, le_le]

/-- A rational comes back from its raw within half a step, and exactly when it is on the grid. -/
theorem rawOf_grid (scale : Nat) (q : Rat) : |(rawOf scale q : Rat) / 2 ^ scale - q| ≤ 1 / 2 ^ (scale + 1) ∧
    ((q * 2 ^ scale).den = 1 → (rawOf scale q : Rat) / 2 ^ scale = q) := by
  have hpos : (0 : Rat) < 2 ^ scale := by positivity
  constructor
  · have hhalf := rawOf_within_half scale q
    have hstep : (rawOf scale q : Rat) / 2 ^ scale - q = -(q * 2 ^ scale - rawOf scale q) / 2 ^ scale := by
      field_simp
      ring
    rw [hstep, abs_div, abs_neg, abs_of_pos hpos, pow_succ', ← div_div]
    exact div_le_div_of_nonneg_right hhalf hpos.le
  · intro hden
    rw [rawOf, hden, roundNearest_one, div_eq_iff hpos.ne']
    exact Rat.coe_int_num_of_den_eq_one hden

/-- What a fixed-point encode packs decodes to the raw of its rational. -/
theorem fieldDecode_of_fixedPack {t : PrimType} {scale : Nat} {be : Bool} {q : Rat} {bs : Bytes}
    (hpack : fixedPack t scale be (.value q) = .ok bs) : fieldDecode t be bs = .ok (valueOf t (rawOf scale q)) := by
  rw [fixedPack_value] at hpack
  obtain ⟨hlo, hhi, rfl⟩ := fieldPack_eq_ok hpack
  simpa using fieldDecode_bytesOf_append hlo hhi be []

/-- Settles O19: a number in a type's range and its bytes determine each other, and a fixed-point operand is packed as its raw. -/
theorem fieldCodecRoundTrips : Obligations.FieldCodecRoundTrips := by
  refine ⟨valueOf, fun v => ⟨rfl, rfl, rfl, rfl, fun t ht => ?_⟩, fun t be v hlo hhi => ?_, fun t be bs hlen => ?_,
    fun be q bs hpack => ?_, fun be q bs hpack => ?_⟩
  · revert t
    simp [valueOf]
  · exact ⟨_, fieldPack_of_range hlo hhi be, by simp, fieldDecode_bytesOf_append hlo hhi be⟩
  · obtain ⟨v, -, -, hdecode, hpack⟩ := exists_number_of_width_le hlen be
    exact ⟨v, hdecode, hpack⟩
  · obtain ⟨hnear, hexact⟩ := rawOf_grid 16 q
    exact ⟨rawOf 16 q, fieldDecode_of_fixedPack hpack, hnear, hexact⟩
  · obtain ⟨hnear, hexact⟩ := rawOf_grid 6 q
    exact ⟨rawOf 6 q, fieldDecode_of_fixedPack hpack, hnear, hexact⟩

/-! ### Port words (R95) -/

/-- A number of a 32-bit type, signed or unsigned, is the signed value of its port word. -/
theorem toInt_portWord {v : Int} (hlo : -2147483648 ≤ v) (hhi : v ≤ 4294967295) : (BitVec.ofInt 64 v).toInt = v :=
  BitVec.toInt_ofInt_eq_self (by decide) (by omega) (by omega)

theorem toNat_ofInt_of_range {n : Nat} {v : Int} (hlo : 0 ≤ v) (hhi : v < 2 ^ n) : ((BitVec.ofInt n v).toNat : Int) = v := by
  rw [BitVec.toNat_ofInt, Int.emod_eq_of_lt hlo (by exact_mod_cast hhi), Int.toNat_of_nonneg hlo]

/-- Every type but the 64-bit pattern carries numbers a port word holds as two's complement. -/
theorem range_of_ne_f64 {t : PrimType} (ht : t ≠ .f64) : -2147483648 ≤ t.lo ∧ t.hi ≤ 4294967295 := by
  cases t with
  | f64 => exact absurd rfl ht
  | _ => decide

/-- The port word of such a number packs to the bytes it was decoded from. -/
theorem exists_portWord_of_width_le {t : PrimType} (ht : t ≠ .f64) {bs : Bytes} (hlen : t.width ≤ bs.length) (be : Bool) :
    ∃ v, fieldDecode t be bs = .ok (valueOf t v) ∧ (BitVec.ofInt 64 v).toInt = v ∧
      fieldPack t be (BitVec.ofInt 64 v).toInt = .ok (bs.take t.width) := by
  obtain ⟨v, hlo, hhi, hdecode, hpack⟩ := exists_number_of_width_le hlen be
  obtain ⟨hlo', hhi'⟩ := range_of_ne_f64 ht
  have hword := toInt_portWord (hlo'.trans hlo) (hhi.trans hhi')
  exact ⟨v, hdecode, hword, by rw [hword, hpack]⟩

/-- Settles O20: the number a decoded value stands for is in the range of its type, so its port word holds it. -/
theorem portWordCarriesDecodedValue : Obligations.PortWordCarriesDecodedValue := by
  refine ⟨fun t be bs ht hlen => ?_, fun be bs hlen => ?_, fun be bs hlen => ?_, fun be bs hlen => ?_,
    fun be bs hlen => ?_⟩
  · have hne : t ≠ .f64 := by rintro rfl; simp at ht
    obtain ⟨v, hdecode, hword, hpack⟩ := exists_portWord_of_width_le hne hlen be
    have hvalue : valueOf t v = .int v := by
      revert t
      simp [valueOf]
    exact ⟨v, _, hvalue ▸ hdecode, rfl, hword, hpack⟩
  · obtain ⟨v, hlo, hhi, hdecode, hpack⟩ := exists_number_of_width_le (t := .f32) hlen be
    have hpattern : ((BitVec.ofInt 32 v).toNat : Int) = v := by
      refine toNat_ofInt_of_range hlo ?_
      change v ≤ 4294967295 at hhi
      omega
    have hword : (((BitVec.ofInt 32 v).setWidth 64).toNat : Int) = v := by
      rw [BitVec.toNat_setWidth, Nat.mod_eq_of_lt (by omega), hpattern]
    refine ⟨BitVec.ofInt 32 v, _, hdecode, rfl, ?_, (f32_range_iff _).1 (by rw [hword]; exact ⟨hlo, hhi⟩), ?_⟩
    · rw [BitVec.extractLsb'_setWidth_of_le (by decide), BitVec.extractLsb'_eq_self]
    · rw [hword]
      exact hpack
  · obtain ⟨v, hlo, hhi, hdecode, hpack⟩ := exists_number_of_width_le (t := .f64) hlen be
    have hpattern : ((BitVec.ofInt 64 v).toNat : Int) = v := by
      refine toNat_ofInt_of_range hlo ?_
      change v ≤ 18446744073709551615 at hhi
      omega
    exact ⟨BitVec.ofInt 64 v, hdecode, rfl, by rw [hpattern]; exact hpack⟩
  · obtain ⟨v, hdecode, hword, hpack⟩ := exists_portWord_of_width_le (t := .fxp32) (by decide) hlen be
    exact ⟨v, _, hdecode, rfl, hword, hpack⟩
  · obtain ⟨v, hdecode, hword, hpack⟩ := exists_portWord_of_width_le (t := .fxp16) (by decide) hlen be
    exact ⟨v, _, hdecode, rfl, hword, hpack⟩

end Sys2Proof.Machine
